-- ==== Sys2Proof/Word.lean ====
section
/-! DEFINITION. The word types of the core (00_scope.md R7) and the bus snapshot (30_encoding.md R67). -/

namespace Sys2Proof

/-- A data byte, a status byte or a command byte. -/
abbrev Byte := BitVec 8

/-- A host address, `A[15:0]`. -/
abbrev Addr := BitVec 16

/-- An I/O port number, `A[7:0]` (R70). -/
abbrev Port := BitVec 8

/-- A 32-bit quantity: store offset, payload size, LBA, capacity. -/
abbrev U32 := BitVec 32

/-- The 28-bit sample word of R67: SLT, RD, WR, IORQ, A, D from bit 27 down. -/
abbrev SampleWord := BitVec 28

/-- A bank register: 12 bits, the widest of R21. -/
abbrev BankReg := BitVec 12

/-- R67: the signals of one bus sample, each control signal at its logical level (true when active). -/
structure Snapshot where
  slt : Bool
  rd : Bool
  wr : Bool
  iorq : Bool
  a : Addr
  d : Byte
deriving DecidableEq, Repr

end Sys2Proof
end

