-- ==== Sys2Proof/Config.lean ====
section
/-! DEFINITION. What an implementation fixes: the schemes (30_encoding.md R76), the parameters of
00_scope.md R8 as one record, the spec's constants, and the free values of 41_mapper.md R115. -/

namespace Sys2Proof

/-- R16, R76: the memory-side schemes; `none` is the memory side of configuration 10 that serves nothing. -/
inductive Scheme where
  | flat16 | flat32 | linear0 | scc | ascii8 | ascii16 | konami | neo8 | neo16 | none
deriving DecidableEq, Repr

/-- R82: which part of a bank register a switch entry writes. -/
inductive Lane where
  | all | lo | hi
deriving DecidableEq, Repr

/-- R82: one entry `(lo, hi, reg, lane)` of a switch table. -/
structure SwitchEntry where
  lo : Addr
  hi : Addr
  reg : Fin 6
  lane : Lane
deriving DecidableEq, Repr

/-- R220, R221: the two designs of the coordinator. -/
inductive CoordMode where
  | async | sync
deriving DecidableEq, Repr

/-- R8, R68: `PIN_POLARITY`, true where the pin of a control signal is active-low. -/
structure Polarity where
  sltLow : Bool
  rdLow : Bool
  wrLow : Bool
  iorqLow : Bool
  waitLow : Bool
deriving DecidableEq, Repr

/-- R8: the parameters. `store` lists the bytes of `STORE` that differ from `Config.erased`. -/
structure Params where
  store : List Host.Cell
  storeLen : Nat
  headerBase : Nat
  nameLen : Nat
  activeIndex : Nat
  useCache : Bool
  cacheMax : Nat
  ctrlPort : Port
  dataPort : Port
  ioNeedsSlot : Bool
  bridgeRomScheme : Scheme
  bridgeId : List Byte
  coordMode : CoordMode
  neo8Switch : List SwitchEntry
  neo16Switch : List SwitchEntry
  polarity : Polarity
deriving DecidableEq, Repr

/-- What the decoder reads beside the sample: the opcode table's rows overlap, and the configuration,
the SCC sound enable, the bridge state and the parameters tell them apart. -/
structure Ctx where
  scheme : Scheme
  bridgeEn : Bool
  soundOn : Bool
  sending : Bool
  ioNeedsSlot : Bool
  ctrlPort : Port
  dataPort : Port
  neo8Switch : List SwitchEntry
  neo16Switch : List SwitchEntry
deriving DecidableEq, Repr

/-- R8, R14: `SENTINEL`, the fixed byte 0xFF. -/
abbrev Config.sentinel : Byte := 0xFF

/-- R8, R142: the default of `CACHE_MAX`. -/
abbrev Config.cacheMaxDefault : Nat := 262144

/-- DESIGN CHOICE (log 9): what an unlisted byte of `STORE` or `cache` reads as. -/
abbrev Config.erased : Byte := 0xFF

/-- R115, free value (log 10): whether the core drives on the n-th read of the SCC sound region. -/
opaque Config.soundDrives : Nat → Bool

/-- R115, free value (log 10): the byte driven on the n-th read of the SCC sound region. -/
opaque Config.soundByte : Nat → BitVec 8

end Sys2Proof
end

