-- ==== Sys2Proof/Machine/Operands.lean ====
section
/-! DEFINITION. The operand forms: read windows (30_encoding.md R80, R81), switch tables (R82 to R84), the
SCC sound region (41_mapper.md R115), the lanes of a bank register (R116) and the little-endian fields (R11, R54). -/

namespace Sys2Proof.Machine

/-- R80: the geometry of a segmented scheme, with the register width `w` of R21. -/
structure Geometry where
  wbase : Nat
  wsize : Nat
  nb : Nat
  w : Nat
deriving DecidableEq, Repr

/-- R21, R80: the geometry of each segmented scheme; flat schemes and NONE have none. -/
def geometry (sch : Scheme) : Option Geometry :=
  match sch with
  | .scc => some ⟨0x4000, 0x2000, 4, 8⟩
  | .ascii8 => some ⟨0x4000, 0x2000, 4, 8⟩
  | .konami => some ⟨0x4000, 0x2000, 4, 8⟩
  | .ascii16 => some ⟨0x4000, 0x4000, 2, 8⟩
  | .neo8 => some ⟨0x0000, 0x2000, 6, 12⟩
  | .neo16 => some ⟨0x0000, 0x4000, 3, 12⟩
  | .flat16 => none
  | .flat32 => none
  | .linear0 => none
  | .none => none

/-- R81: the first and last address of a flat scheme's window. -/
def flatWindow (sch : Scheme) : Option (Nat × Nat) :=
  match sch with
  | .flat16 => some (0x4000, 0x7FFF)
  | .flat32 => some (0x4000, 0xBFFF)
  | .linear0 => some (0x0000, 0xBFFF)
  | .scc => none
  | .ascii8 => none
  | .konami => none
  | .ascii16 => none
  | .neo8 => none
  | .neo16 => none
  | .none => none

/-- R21: the number of bank registers of a scheme. -/
def numBanks (sch : Scheme) : Nat :=
  match geometry sch with
  | some g => g.nb
  | none => 0

/-- R21: the width of the bank registers of a scheme. -/
def bankWidth (sch : Scheme) : Nat :=
  match geometry sch with
  | some g => g.w
  | none => 0

/-- R51: whether an address lies in a read window of the scheme. -/
def inWindows (sch : Scheme) (a : Addr) : Bool :=
  match flatWindow sch, geometry sch with
  | some (first, last), _ => first ≤ a.toNat && a.toNat ≤ last
  | none, some g => g.wbase ≤ a.toNat && a.toNat < g.wbase + g.nb * g.wsize
  | none, none => false

/-- R115: `0x9800 <= A <= 0x9FFF`. -/
def inSoundRegion (a : Addr) : Bool := 0x9800 ≤ a.toNat && a.toNat ≤ 0x9FFF

/-- R115: an offset of the window 0x8000-0x9FFF that lies in the sound region. -/
def soundOffset (off : BitVec 13) : Bool := 0x1800 ≤ off.toNat

/-- R82: the entry of a switch table that holds an address. -/
def findEntry (t : List SwitchEntry) (a : Addr) : Option SwitchEntry :=
  t.find? fun e => e.lo.toNat ≤ a.toNat && a.toNat ≤ e.hi.toNat

/-- R83: the switch ranges of the four fixed-geometry schemes; R84: those of the fine schemes are
parameters; R117: the flat schemes and NONE have none. -/
def switchTable (neo8 neo16 : List SwitchEntry) (sch : Scheme) : List SwitchEntry :=
  match sch with
  | .scc => [⟨0x5000, 0x57FF, 0, .all⟩, ⟨0x7000, 0x77FF, 1, .all⟩, ⟨0x9000, 0x97FF, 2, .all⟩, ⟨0xB000, 0xB7FF, 3, .all⟩]
  | .konami => [⟨0x6000, 0x7FFF, 1, .all⟩, ⟨0x8000, 0x9FFF, 2, .all⟩, ⟨0xA000, 0xBFFF, 3, .all⟩]
  | .ascii8 => [⟨0x6000, 0x67FF, 0, .all⟩, ⟨0x6800, 0x6FFF, 1, .all⟩, ⟨0x7000, 0x77FF, 2, .all⟩, ⟨0x7800, 0x7FFF, 3, .all⟩]
  | .ascii16 => [⟨0x6000, 0x67FF, 0, .all⟩, ⟨0x7000, 0x77FF, 1, .all⟩]
  | .neo8 => neo8
  | .neo16 => neo16
  | .flat16 => []
  | .flat32 => []
  | .linear0 => []
  | .none => []

/-- R116: the new value of a register of `w` bits when lane `lane` of its old value takes the byte `d`. -/
def laneValue (w : Nat) (lane : Lane) (old : BankReg) (d : Byte) : BankReg :=
  match lane with
  | .all => BitVec.ofNat 12 (d.toNat % 2 ^ w)
  | .lo => (old &&& 0xF00) ||| d.setWidth 12
  | .hi => (old &&& 0x0FF) ||| ((d &&& 0x0F).setWidth 12 <<< 8)

/-- R72: the seven command bytes; R73: every other byte is unrecognised. -/
def recognised (d : Byte) : Bool :=
  d = 0x01 || d = 0x03 || d = 0x05 || d = 0x06 || d = 0x07 || d = 0x08 || d = 0x09

/-- R11, R54: the value of four bytes, the first the lowest. -/
def le32 (b0 b1 b2 b3 : Byte) : U32 := b3 ++ b2 ++ b1 ++ b0

/-- R177: the four bytes of a value, the lowest first. -/
def le32Bytes (v : U32) : List Byte :=
  [v.extractLsb' 0 8, v.extractLsb' 8 8, v.extractLsb' 16 8, v.extractLsb' 24 8]

/-- R76: the scheme of a tag from 1 to 9. -/
def schemeOfTag (tag : Byte) : Option Scheme :=
  match tag.toNat with
  | 1 => some .flat16
  | 2 => some .flat32
  | 3 => some .scc
  | 4 => some .linear0
  | 5 => some .ascii8
  | 6 => some .ascii16
  | 7 => some .konami
  | 8 => some .neo8
  | 9 => some .neo16
  | _ => none

/-- R68: the control bits that are active-low; a logical word is its pin word with these bits flipped. -/
def polarityMask (p : Polarity) : SampleWord :=
  (BitVec.ofBool p.sltLow ++ BitVec.ofBool p.rdLow ++ BitVec.ofBool p.wrLow ++ BitVec.ofBool p.iorqLow ++ (0 : BitVec 24)).cast rfl

end Sys2Proof.Machine
end

