-- ==== Sys2Proof/Syntax.lean ====
section
/-! DEFINITION. The instructions: one constructor per row of the opcode table (30_encoding.md R67, R69).
A row is a bus-cycle class, a read window, a switch range, a command byte or a port access.
`off` is the address offset inside the row's window or range, `a` the whole address, `d` the byte written. -/

namespace Sys2Proof

/-- The rows of the opcode table. The rule cited is the row's own. -/
inductive Instr where
  /-- `NOISE`, R151. -/
  | noise
  /-- `NO_CYCLE`, R151. -/
  | noCycle
  /-- `UNSELECTED_RD`, R151. -/
  | unselectedRd
  /-- `UNSELECTED_WR`, R151. -/
  | unselectedWr
  /-- `MR.FLAT16`, R118. -/
  | mrFlat16 (off : BitVec 14)
  /-- `MR.FLAT32.lo`, R119. -/
  | mrFlat32Lo (off : BitVec 14)
  /-- `MR.FLAT32.hi`, R119. -/
  | mrFlat32Hi (off : BitVec 14)
  /-- `MR.LINEAR0.part0`, R120. -/
  | mrLinear0Part0 (off : BitVec 14)
  /-- `MR.LINEAR0.part1`, R120. -/
  | mrLinear0Part1 (off : BitVec 14)
  /-- `MR.LINEAR0.part2`, R120. -/
  | mrLinear0Part2 (off : BitVec 14)
  /-- `MR.SCC.bank0`, R122. -/
  | mrSccBank0 (off : BitVec 13)
  /-- `MR.SCC.bank1`, R122. -/
  | mrSccBank1 (off : BitVec 13)
  /-- `MR.SCC.bank2`, R122. -/
  | mrSccBank2 (off : BitVec 13)
  /-- `MR.SCC.bank3`, R122. -/
  | mrSccBank3 (off : BitVec 13)
  /-- `MR.KONAMI.bank0`, R124. -/
  | mrKonamiBank0 (off : BitVec 13)
  /-- `MR.KONAMI.bank1`, R124. -/
  | mrKonamiBank1 (off : BitVec 13)
  /-- `MR.KONAMI.bank2`, R124. -/
  | mrKonamiBank2 (off : BitVec 13)
  /-- `MR.KONAMI.bank3`, R124. -/
  | mrKonamiBank3 (off : BitVec 13)
  /-- `MR.ASCII8.bank0`, R126. -/
  | mrAscii8Bank0 (off : BitVec 13)
  /-- `MR.ASCII8.bank1`, R126. -/
  | mrAscii8Bank1 (off : BitVec 13)
  /-- `MR.ASCII8.bank2`, R126. -/
  | mrAscii8Bank2 (off : BitVec 13)
  /-- `MR.ASCII8.bank3`, R126. -/
  | mrAscii8Bank3 (off : BitVec 13)
  /-- `MR.ASCII16.bank0`, R128. -/
  | mrAscii16Bank0 (off : BitVec 14)
  /-- `MR.ASCII16.bank1`, R128. -/
  | mrAscii16Bank1 (off : BitVec 14)
  /-- `MR.NEO8.bank0`, R130. -/
  | mrNeo8Bank0 (off : BitVec 13)
  /-- `MR.NEO8.bank1`, R130. -/
  | mrNeo8Bank1 (off : BitVec 13)
  /-- `MR.NEO8.bank2`, R130. -/
  | mrNeo8Bank2 (off : BitVec 13)
  /-- `MR.NEO8.bank3`, R130. -/
  | mrNeo8Bank3 (off : BitVec 13)
  /-- `MR.NEO8.bank4`, R130. -/
  | mrNeo8Bank4 (off : BitVec 13)
  /-- `MR.NEO8.bank5`, R130. -/
  | mrNeo8Bank5 (off : BitVec 13)
  /-- `MR.NEO16.bank0`, R132. -/
  | mrNeo16Bank0 (off : BitVec 14)
  /-- `MR.NEO16.bank1`, R132. -/
  | mrNeo16Bank1 (off : BitVec 14)
  /-- `MR.NEO16.bank2`, R132. -/
  | mrNeo16Bank2 (off : BitVec 14)
  /-- `MR.SCC.sound`, R115. -/
  | mrSccSound (off : BitVec 11)
  /-- `MW.SCC.bank0`, R123. -/
  | mwSccBank0 (off : BitVec 11) (d : Byte)
  /-- `MW.SCC.bank1`, R123. -/
  | mwSccBank1 (off : BitVec 11) (d : Byte)
  /-- `MW.SCC.bank2`, R123. -/
  | mwSccBank2 (off : BitVec 11) (d : Byte)
  /-- `MW.SCC.bank3`, R123. -/
  | mwSccBank3 (off : BitVec 11) (d : Byte)
  /-- `MW.KONAMI.bank1`, R125. -/
  | mwKonamiBank1 (off : BitVec 13) (d : Byte)
  /-- `MW.KONAMI.bank2`, R125. -/
  | mwKonamiBank2 (off : BitVec 13) (d : Byte)
  /-- `MW.KONAMI.bank3`, R125. -/
  | mwKonamiBank3 (off : BitVec 13) (d : Byte)
  /-- `MW.ASCII8.bank0`, R127. -/
  | mwAscii8Bank0 (off : BitVec 11) (d : Byte)
  /-- `MW.ASCII8.bank1`, R127. -/
  | mwAscii8Bank1 (off : BitVec 11) (d : Byte)
  /-- `MW.ASCII8.bank2`, R127. -/
  | mwAscii8Bank2 (off : BitVec 11) (d : Byte)
  /-- `MW.ASCII8.bank3`, R127. -/
  | mwAscii8Bank3 (off : BitVec 11) (d : Byte)
  /-- `MW.ASCII16.bank0`, R129. -/
  | mwAscii16Bank0 (off : BitVec 11) (d : Byte)
  /-- `MW.ASCII16.bank1`, R129. -/
  | mwAscii16Bank1 (off : BitVec 11) (d : Byte)
  /-- `MW.SCC.sound`, R116. -/
  | mwSccSound (off : BitVec 11) (d : Byte)
  /-- `MW.NEO8.switch`, R131. -/
  | mwNeo8Switch (a : Addr) (d : Byte)
  /-- `MW.NEO16.switch`, R133. -/
  | mwNeo16Switch (a : Addr) (d : Byte)
  /-- `MW.other`, R117. -/
  | mwOther (a : Addr) (d : Byte)
  /-- `MEM_READ.unserved`, R114. -/
  | memReadUnserved (a : Addr)
  /-- `IW.CTRL.INIT`, R174. -/
  | iwCtrlInit
  /-- `IW.CTRL.GET_ID`, R176. -/
  | iwCtrlGetId
  /-- `IW.CTRL.GET_CAP`, R177. -/
  | iwCtrlGetCap
  /-- `IW.CTRL.READ_BLOCK`, R178. -/
  | iwCtrlReadBlock
  /-- `IW.CTRL.READ_NEXT`, R179. -/
  | iwCtrlReadNext
  /-- `IW.CTRL.WRITE_BLOCK`, R180. -/
  | iwCtrlWriteBlock
  /-- `IW.CTRL.WRITE_NEXT`, R181. -/
  | iwCtrlWriteNext
  /-- `IW.CTRL.unrecognised`, R183. -/
  | iwCtrlUnrecognised (d : Byte)
  /-- `IR.CTRL.status`, R195. -/
  | irCtrlStatus
  /-- `IW.DATA`, R184. -/
  | iwData (d : Byte)
  /-- `IR.DATA.sending`, R196. -/
  | irDataSending
  /-- `IR.DATA.other`, R197. -/
  | irDataOther
  /-- `IO.other_port`, R158. -/
  | ioOtherPort (isWrite : Bool) (port : Port)
deriving DecidableEq, Repr

end Sys2Proof
end

