-- ==== Sys2Proof/WellFormed.lean ====
section
/-! DEFINITION. When an instruction can be a row of its context: the scheme, the SCC sound enable, the
bridge and the parameters are those of the row (the `condition` fields of the opcode table). -/

namespace Sys2Proof

open Machine in
/-- The condition under which a row stands, beside its own bits. -/
def WellFormed (c : Ctx) (i : Instr) : Bool :=
  match i with
  | .noise => true
  | .noCycle => true
  | .unselectedRd => true
  | .unselectedWr => true
  | .mrFlat16 _ => c.scheme == .flat16
  | .mrFlat32Lo _ => c.scheme == .flat32
  | .mrFlat32Hi _ => c.scheme == .flat32
  | .mrLinear0Part0 _ => c.scheme == .linear0
  | .mrLinear0Part1 _ => c.scheme == .linear0
  | .mrLinear0Part2 _ => c.scheme == .linear0
  | .mrSccBank0 _ => c.scheme == .scc
  | .mrSccBank1 _ => c.scheme == .scc
  | .mrSccBank2 off => c.scheme == .scc && !(c.soundOn && soundOffset off)
  | .mrSccBank3 _ => c.scheme == .scc
  | .mrKonamiBank0 _ => c.scheme == .konami
  | .mrKonamiBank1 _ => c.scheme == .konami
  | .mrKonamiBank2 _ => c.scheme == .konami
  | .mrKonamiBank3 _ => c.scheme == .konami
  | .mrAscii8Bank0 _ => c.scheme == .ascii8
  | .mrAscii8Bank1 _ => c.scheme == .ascii8
  | .mrAscii8Bank2 _ => c.scheme == .ascii8
  | .mrAscii8Bank3 _ => c.scheme == .ascii8
  | .mrNeo8Bank0 _ => c.scheme == .neo8
  | .mrNeo8Bank1 _ => c.scheme == .neo8
  | .mrNeo8Bank2 _ => c.scheme == .neo8
  | .mrNeo8Bank3 _ => c.scheme == .neo8
  | .mrNeo8Bank4 _ => c.scheme == .neo8
  | .mrNeo8Bank5 _ => c.scheme == .neo8
  | .mrAscii16Bank0 _ => c.scheme == .ascii16
  | .mrAscii16Bank1 _ => c.scheme == .ascii16
  | .mrNeo16Bank0 _ => c.scheme == .neo16
  | .mrNeo16Bank1 _ => c.scheme == .neo16
  | .mrNeo16Bank2 _ => c.scheme == .neo16
  | .mrSccSound _ => c.scheme == .scc && c.soundOn
  | .mwSccBank0 _ _ => c.scheme == .scc
  | .mwSccBank1 _ _ => c.scheme == .scc
  | .mwSccBank2 _ _ => c.scheme == .scc
  | .mwSccBank3 _ _ => c.scheme == .scc
  | .mwAscii8Bank0 _ _ => c.scheme == .ascii8
  | .mwAscii8Bank1 _ _ => c.scheme == .ascii8
  | .mwAscii8Bank2 _ _ => c.scheme == .ascii8
  | .mwAscii8Bank3 _ _ => c.scheme == .ascii8
  | .mwAscii16Bank0 _ _ => c.scheme == .ascii16
  | .mwAscii16Bank1 _ _ => c.scheme == .ascii16
  | .mwKonamiBank1 _ _ => c.scheme == .konami
  | .mwKonamiBank2 _ _ => c.scheme == .konami
  | .mwKonamiBank3 _ _ => c.scheme == .konami
  | .mwSccSound _ _ => c.scheme == .scc && c.soundOn
  | .mwNeo8Switch a _ => c.scheme == .neo8 && (findEntry c.neo8Switch a).isSome
  | .mwNeo16Switch a _ => c.scheme == .neo16 && (findEntry c.neo16Switch a).isSome
  | .mwOther a _ => !(c.scheme == .scc && c.soundOn && inSoundRegion a) &&
      (findEntry (switchTable c.neo8Switch c.neo16Switch c.scheme) a).isNone
  | .memReadUnserved a => !inWindows c.scheme a
  | .iwCtrlInit => c.bridgeEn
  | .iwCtrlGetId => c.bridgeEn
  | .iwCtrlGetCap => c.bridgeEn
  | .iwCtrlReadBlock => c.bridgeEn
  | .iwCtrlReadNext => c.bridgeEn
  | .iwCtrlWriteBlock => c.bridgeEn
  | .iwCtrlWriteNext => c.bridgeEn
  | .iwCtrlUnrecognised d => c.bridgeEn && !recognised d
  | .irCtrlStatus => c.bridgeEn
  | .iwData _ => c.bridgeEn
  | .irDataSending => c.bridgeEn && c.sending
  | .irDataOther => c.bridgeEn && !c.sending
  | .ioOtherPort _ p => !c.bridgeEn || (p != c.ctrlPort && p != c.dataPort)

end Sys2Proof
end

