-- ==== Sys2Proof/Decode.lean ====
section
/-! DEFINITION. The decoder and the encoder of the sample word (30_encoding.md R67, R69, R70 and the rows
of the opcode table). The decoder takes the context that tells overlapping rows apart; it is total on
samples, and a number that is no 28-bit word is rejected by name. -/

namespace Sys2Proof

open Machine

/-- R67: the fields of a sample word. -/
def Snapshot.ofWord (w : SampleWord) : Snapshot where
  slt := w.getLsbD 27
  rd := w.getLsbD 26
  wr := w.getLsbD 25
  iorq := w.getLsbD 24
  a := w.extractLsb' 8 16
  d := w.extractLsb' 0 8

/-- R67: the sample word of a snapshot. -/
def Snapshot.toWord (s : Snapshot) : SampleWord :=
  (BitVec.ofBool s.slt ++ BitVec.ofBool s.rd ++ BitVec.ofBool s.wr ++ BitVec.ofBool s.iorq ++ s.a ++ s.d).cast rfl

/-- R69: the seven cycle classes. -/
inductive CycleClass where
  | noise | noCycle | unselected | memRead | memWrite | ioRead | ioWrite
deriving DecidableEq, Repr

/-- R69: the class of a snapshot. -/
def classify (ioNeedsSlot : Bool) (s : Snapshot) : CycleClass :=
  if s.rd && s.wr then .noise
  else if !s.rd && !s.wr then .noCycle
  else if s.iorq then
    if ioNeedsSlot && !s.slt then .unselected
    else if s.rd then .ioRead
    else .ioWrite
  else if !s.slt then .unselected
  else if s.rd then .memRead
  else .memWrite

/-- The row of a memory read (R118 to R132): the window of the scheme that holds the address, or none. -/
def decodeMemRead (c : Ctx) (a : Addr) : Instr :=
  match c.scheme with
  | .flat16 =>
    match a.toNat / 0x4000 with
    | 1 => .mrFlat16 (a.setWidth 14)
    | _ => .memReadUnserved a
  | .flat32 =>
    match a.toNat / 0x4000 with
    | 1 => .mrFlat32Lo (a.setWidth 14)
    | 2 => .mrFlat32Hi (a.setWidth 14)
    | _ => .memReadUnserved a
  | .linear0 =>
    match a.toNat / 0x4000 with
    | 0 => .mrLinear0Part0 (a.setWidth 14)
    | 1 => .mrLinear0Part1 (a.setWidth 14)
    | 2 => .mrLinear0Part2 (a.setWidth 14)
    | _ => .memReadUnserved a
  | .scc =>
    if c.soundOn && inSoundRegion a then .mrSccSound (a.setWidth 11)
    else
    match a.toNat / 0x2000 with
    | 2 => .mrSccBank0 (a.setWidth 13)
    | 3 => .mrSccBank1 (a.setWidth 13)
    | 4 => .mrSccBank2 (a.setWidth 13)
    | 5 => .mrSccBank3 (a.setWidth 13)
    | _ => .memReadUnserved a
  | .ascii8 =>
    match a.toNat / 0x2000 with
    | 2 => .mrAscii8Bank0 (a.setWidth 13)
    | 3 => .mrAscii8Bank1 (a.setWidth 13)
    | 4 => .mrAscii8Bank2 (a.setWidth 13)
    | 5 => .mrAscii8Bank3 (a.setWidth 13)
    | _ => .memReadUnserved a
  | .ascii16 =>
    match a.toNat / 0x4000 with
    | 1 => .mrAscii16Bank0 (a.setWidth 14)
    | 2 => .mrAscii16Bank1 (a.setWidth 14)
    | _ => .memReadUnserved a
  | .konami =>
    match a.toNat / 0x2000 with
    | 2 => .mrKonamiBank0 (a.setWidth 13)
    | 3 => .mrKonamiBank1 (a.setWidth 13)
    | 4 => .mrKonamiBank2 (a.setWidth 13)
    | 5 => .mrKonamiBank3 (a.setWidth 13)
    | _ => .memReadUnserved a
  | .neo8 =>
    match a.toNat / 0x2000 with
    | 0 => .mrNeo8Bank0 (a.setWidth 13)
    | 1 => .mrNeo8Bank1 (a.setWidth 13)
    | 2 => .mrNeo8Bank2 (a.setWidth 13)
    | 3 => .mrNeo8Bank3 (a.setWidth 13)
    | 4 => .mrNeo8Bank4 (a.setWidth 13)
    | 5 => .mrNeo8Bank5 (a.setWidth 13)
    | _ => .memReadUnserved a
  | .neo16 =>
    match a.toNat / 0x4000 with
    | 0 => .mrNeo16Bank0 (a.setWidth 14)
    | 1 => .mrNeo16Bank1 (a.setWidth 14)
    | 2 => .mrNeo16Bank2 (a.setWidth 14)
    | _ => .memReadUnserved a
  | .none => .memReadUnserved a

/-- The row of a memory write (R116, R117, R123 to R133): the switch range that holds the address, or none. -/
def decodeMemWrite (c : Ctx) (a : Addr) (d : Byte) : Instr :=
  match c.scheme with
  | .scc =>
    if c.soundOn && inSoundRegion a then .mwSccSound (a.setWidth 11) d
    else
    match a.toNat / 0x800 with
    | 10 => .mwSccBank0 (a.setWidth 11) d
    | 14 => .mwSccBank1 (a.setWidth 11) d
    | 18 => .mwSccBank2 (a.setWidth 11) d
    | 22 => .mwSccBank3 (a.setWidth 11) d
    | _ => .mwOther a d
  | .ascii8 =>
    match a.toNat / 0x800 with
    | 12 => .mwAscii8Bank0 (a.setWidth 11) d
    | 13 => .mwAscii8Bank1 (a.setWidth 11) d
    | 14 => .mwAscii8Bank2 (a.setWidth 11) d
    | 15 => .mwAscii8Bank3 (a.setWidth 11) d
    | _ => .mwOther a d
  | .ascii16 =>
    match a.toNat / 0x800 with
    | 12 => .mwAscii16Bank0 (a.setWidth 11) d
    | 14 => .mwAscii16Bank1 (a.setWidth 11) d
    | _ => .mwOther a d
  | .konami =>
    match a.toNat / 0x2000 with
    | 3 => .mwKonamiBank1 (a.setWidth 13) d
    | 4 => .mwKonamiBank2 (a.setWidth 13) d
    | 5 => .mwKonamiBank3 (a.setWidth 13) d
    | _ => .mwOther a d
  | .neo8 => if (findEntry c.neo8Switch a).isSome then .mwNeo8Switch a d else .mwOther a d
  | .neo16 => if (findEntry c.neo16Switch a).isSome then .mwNeo16Switch a d else .mwOther a d
  | .flat16 => .mwOther a d
  | .flat32 => .mwOther a d
  | .linear0 => .mwOther a d
  | .none => .mwOther a d

/-- R72, R73: the row of a command byte. -/
def decodeCommand (d : Byte) : Instr :=
  match d.toNat with
  | 1 => .iwCtrlInit
  | 3 => .iwCtrlGetId
  | 5 => .iwCtrlGetCap
  | 6 => .iwCtrlReadBlock
  | 7 => .iwCtrlReadNext
  | 8 => .iwCtrlWriteBlock
  | 9 => .iwCtrlWriteNext
  | _ => .iwCtrlUnrecognised d

/-- R70: `port = A[7:0]`. -/
def portOf (a : Addr) : Port := a.setWidth 8

/-- R70, R195 to R197: the row of an I/O read. -/
def decodeIoRead (c : Ctx) (a : Addr) : Instr :=
  if !c.bridgeEn then .ioOtherPort false (portOf a)
  else if portOf a = c.ctrlPort then .irCtrlStatus
  else if portOf a = c.dataPort then (if c.sending then .irDataSending else .irDataOther)
  else .ioOtherPort false (portOf a)

/-- R70, R170, R184: the row of an I/O write. -/
def decodeIoWrite (c : Ctx) (a : Addr) (d : Byte) : Instr :=
  if !c.bridgeEn then .ioOtherPort true (portOf a)
  else if portOf a = c.ctrlPort then decodeCommand d
  else if portOf a = c.dataPort then .iwData d
  else .ioOtherPort true (portOf a)

/-- The row of the opcode table a snapshot is, in a context. -/
def decode (c : Ctx) (s : Snapshot) : Instr :=
  match classify c.ioNeedsSlot s with
  | .noise => .noise
  | .noCycle => .noCycle
  | .unselected => if s.rd then .unselectedRd else .unselectedWr
  | .memRead => decodeMemRead c s.a
  | .memWrite => decodeMemWrite c s.a s.d
  | .ioRead => decodeIoRead c s.a
  | .ioWrite => decodeIoWrite c s.a s.d

/-- Why a number is no instruction. -/
inductive DecodeReject where
  /-- The number has a bit above bit 27, so it is no sample word (R67). -/
  | notASampleWord
deriving DecidableEq, Repr

/-- The decoder on any number: a 28-bit word is decoded, any other is rejected by name. -/
def decodeWord (c : Ctx) (w : Nat) : Except DecodeReject Instr :=
  if w < 2 ^ 28 then .ok (decode c (Snapshot.ofWord (BitVec.ofNat 28 w)))
  else .error .notASampleWord

/-! The encoder. Bits the core ignores are written 0 (log 21). -/

/-- The snapshot of a memory read of address `a`. -/
def readAt (a : Nat) : Snapshot := ⟨true, true, false, false, BitVec.ofNat 16 a, 0⟩

/-- The snapshot of a memory write of `d` at address `a`. -/
def writeAt (a : Nat) (d : Byte) : Snapshot := ⟨true, false, true, false, BitVec.ofNat 16 a, d⟩

/-- The snapshot of an I/O read of port `p`; SLT only where the context needs it (R69). -/
def portRead (c : Ctx) (p : Port) : Snapshot := ⟨c.ioNeedsSlot, true, false, true, p.setWidth 16, 0⟩

/-- The snapshot of an I/O write of `d` to port `p`. -/
def portWrite (c : Ctx) (p : Port) (d : Byte) : Snapshot := ⟨c.ioNeedsSlot, false, true, true, p.setWidth 16, d⟩

/-- The snapshot that stands for an instruction, written from the encodings of the opcode table. -/
def encodeSnapshot (c : Ctx) (i : Instr) : Snapshot :=
  match i with
  | .noise => ⟨false, true, true, false, 0, 0⟩
  | .noCycle => ⟨false, false, false, false, 0, 0⟩
  | .unselectedRd => ⟨false, true, false, false, 0, 0⟩
  | .unselectedWr => ⟨false, false, true, false, 0, 0⟩
  | .mrFlat16 off => readAt (0x4000 + off.toNat)
  | .mrFlat32Lo off => readAt (0x4000 + off.toNat)
  | .mrFlat32Hi off => readAt (0x8000 + off.toNat)
  | .mrLinear0Part0 off => readAt (0x0000 + off.toNat)
  | .mrLinear0Part1 off => readAt (0x4000 + off.toNat)
  | .mrLinear0Part2 off => readAt (0x8000 + off.toNat)
  | .mrAscii16Bank0 off => readAt (0x4000 + off.toNat)
  | .mrAscii16Bank1 off => readAt (0x8000 + off.toNat)
  | .mrNeo16Bank0 off => readAt (0x0000 + off.toNat)
  | .mrNeo16Bank1 off => readAt (0x4000 + off.toNat)
  | .mrNeo16Bank2 off => readAt (0x8000 + off.toNat)
  | .mrSccBank0 off => readAt (0x4000 + off.toNat)
  | .mrSccBank1 off => readAt (0x6000 + off.toNat)
  | .mrSccBank2 off => readAt (0x8000 + off.toNat)
  | .mrSccBank3 off => readAt (0xA000 + off.toNat)
  | .mrKonamiBank0 off => readAt (0x4000 + off.toNat)
  | .mrKonamiBank1 off => readAt (0x6000 + off.toNat)
  | .mrKonamiBank2 off => readAt (0x8000 + off.toNat)
  | .mrKonamiBank3 off => readAt (0xA000 + off.toNat)
  | .mrAscii8Bank0 off => readAt (0x4000 + off.toNat)
  | .mrAscii8Bank1 off => readAt (0x6000 + off.toNat)
  | .mrAscii8Bank2 off => readAt (0x8000 + off.toNat)
  | .mrAscii8Bank3 off => readAt (0xA000 + off.toNat)
  | .mrNeo8Bank0 off => readAt (0x0000 + off.toNat)
  | .mrNeo8Bank1 off => readAt (0x2000 + off.toNat)
  | .mrNeo8Bank2 off => readAt (0x4000 + off.toNat)
  | .mrNeo8Bank3 off => readAt (0x6000 + off.toNat)
  | .mrNeo8Bank4 off => readAt (0x8000 + off.toNat)
  | .mrNeo8Bank5 off => readAt (0xA000 + off.toNat)
  | .mrSccSound off => readAt (0x9800 + off.toNat)
  | .mwSccBank0 off d => writeAt (0x5000 + off.toNat) d
  | .mwSccBank1 off d => writeAt (0x7000 + off.toNat) d
  | .mwSccBank2 off d => writeAt (0x9000 + off.toNat) d
  | .mwSccBank3 off d => writeAt (0xB000 + off.toNat) d
  | .mwAscii8Bank0 off d => writeAt (0x6000 + off.toNat) d
  | .mwAscii8Bank1 off d => writeAt (0x6800 + off.toNat) d
  | .mwAscii8Bank2 off d => writeAt (0x7000 + off.toNat) d
  | .mwAscii8Bank3 off d => writeAt (0x7800 + off.toNat) d
  | .mwAscii16Bank0 off d => writeAt (0x6000 + off.toNat) d
  | .mwAscii16Bank1 off d => writeAt (0x7000 + off.toNat) d
  | .mwKonamiBank1 off d => writeAt (0x6000 + off.toNat) d
  | .mwKonamiBank2 off d => writeAt (0x8000 + off.toNat) d
  | .mwKonamiBank3 off d => writeAt (0xA000 + off.toNat) d
  | .mwSccSound off d => writeAt (0x9800 + off.toNat) d
  | .mwNeo8Switch a d => writeAt a.toNat d
  | .mwNeo16Switch a d => writeAt a.toNat d
  | .mwOther a d => writeAt a.toNat d
  | .memReadUnserved a => readAt a.toNat
  | .iwCtrlInit => portWrite c c.ctrlPort 0x01
  | .iwCtrlGetId => portWrite c c.ctrlPort 0x03
  | .iwCtrlGetCap => portWrite c c.ctrlPort 0x05
  | .iwCtrlReadBlock => portWrite c c.ctrlPort 0x06
  | .iwCtrlReadNext => portWrite c c.ctrlPort 0x07
  | .iwCtrlWriteBlock => portWrite c c.ctrlPort 0x08
  | .iwCtrlWriteNext => portWrite c c.ctrlPort 0x09
  | .iwCtrlUnrecognised d => portWrite c c.ctrlPort d
  | .irCtrlStatus => portRead c c.ctrlPort
  | .iwData d => portWrite c c.dataPort d
  | .irDataSending => portRead c c.dataPort
  | .irDataOther => portRead c c.dataPort
  | .ioOtherPort w p => if w then portWrite c p 0 else portRead c p

/-- The sample word of an instruction in a context. -/
def encode (c : Ctx) (i : Instr) : SampleWord := (encodeSnapshot c i).toWord

/-! The table's words. A word alone fits several rows; `tableCtx` names the one context in which the word
is read (log 6): the row whose own bits are the most specific, and the first such row of the table. -/

/-- Log 6: the scheme whose row is the most specific one for a memory read or write. -/
def tableScheme (s : Snapshot) : Scheme :=
  match classify false s with
  | .memRead => if s.a.toNat < 0x4000 then .neo8 else .scc
  | .memWrite =>
    match s.a.toNat / 0x800 with
    | 10 => .scc
    | 14 => .scc
    | 18 => .scc
    | 19 => .scc
    | 22 => .scc
    | 12 => .ascii8
    | 13 => .ascii8
    | 15 => .ascii8
    | _ => if s.a.toNat < 0x6000 then .none else .konami
  | _ => .none

/-- Log 6: the context in which a word of the table is read; the ports are the table's example values
0x60 and 0x61, the bridge is on for an I/O cycle. -/
def tableCtx (s : Snapshot) : Ctx where
  scheme := tableScheme s
  bridgeEn := s.iorq
  soundOn := inSoundRegion s.a
  sending := false
  ioNeedsSlot := false
  ctrlPort := 0x60
  dataPort := 0x61
  neo8Switch := []
  neo16Switch := []

/-- The instruction the decoder reads from a table word; bits above `nbits` are 0. -/
def decodeTableWord (nbits w : Nat) : Option Instr :=
  let v := w % 2 ^ nbits
  match decodeWord (tableCtx (Snapshot.ofWord (BitVec.ofNat 28 v))) v with
  | .ok i => some i
  | .error _ => none

end Sys2Proof
end

