-- ==== Sys2Proof/Machine/State.lean ====
section
/-! DEFINITION. The state of the core as plain data (10_state.md R15 to R40), the environment's values the
rules read (R35), the parameters of R8, the events the environment offers (60_exceptions.md R234), and
the machine after reset. -/

namespace Sys2Proof.Machine

/-- A sparse byte array: pairs of offset and byte, offsets strictly rising, no byte equal to
`Config.erased`, which is what an unlisted offset reads as (log 9). -/
abbrev Memory := List Host.Cell

/-- R17: the boot and serve phase. -/
inductive Phase where
  | boot | serve | halt
deriving DecidableEq, Repr

/-- R18: the transaction FSM. -/
inductive Fsm where
  | idle | readHold | writeHold
deriving DecidableEq, Repr

/-- R26, R33, R34: the direction of a block operation. -/
inductive Dir where
  | read | write
deriving DecidableEq, Repr

/-- R25: the six states of the bridge session. -/
inductive BrState where
  | idle | awaitAddr | readPending | sending | awaitPayload | writePending
deriving DecidableEq, Repr

/-- R34: the coordinator's result cell. -/
inductive CoResult where
  | none | ready | failed
deriving DecidableEq, Repr

/-- R16: the configuration latched at boot. -/
structure Cfg where
  tag : Byte
  scheme : Scheme
  bridgeEn : Bool
  romBase : U32
  romSize : U32
  stagedLen : U32
deriving DecidableEq, Repr

/-- R30: the 512-byte buffer, byte 0 first. -/
structure Buffer where
  bytes : List Byte
  size : bytes.length = 512
deriving DecidableEq, Repr

/-- R25 to R33: the bridge session. -/
structure Bridge where
  state : BrState
  dir : Dir
  addrCount : Nat
  lba : U32
  cursor : Nat
  remaining : Nat
  buf : Buffer
  status : Byte
  lastCmd : Byte
  seqValid : Bool
  seqDir : Dir
deriving DecidableEq, Repr

/-- R34: the coordinator. -/
structure Coord where
  inFlight : Bool
  result : CoResult
  op : Dir
  opLba : U32
deriving DecidableEq, Repr

/-- R35: the backend's inputs to the core. -/
structure Device where
  ready : Bool
  capacity : U32
deriving DecidableEq, Repr

/-- R234: the events the core accepts. A sample is the 28 pin levels (R68, R100). -/
inductive Event where
  | sample (pins : SampleWord)
  | bootStep
  | complete (ok : Bool) (data : Buffer)
  | mount (capacity : U32)
  | remove
  | reset
deriving DecidableEq, Repr

/-- R235: the events the environment offers at one instant. -/
abbrev Instant := List Event

/-- The machine. `par` and `dev` are the environment's (R15), `inputs` and `draws` the model's own
(logs 3 and 10); the other fields are the tuple of R15. -/
structure State where
  par : Params
  dev : Device
  inputs : List Instant
  draws : Nat
  phase : Phase
  fsm : Fsm
  dout : Byte
  cfg : Cfg
  bank : Vector BankReg 6
  cache : Memory
  br : Bridge
  co : Coord
deriving DecidableEq, Repr

/-- Why the machine stops. Neither is reached from reset (log 14). -/
inductive Fault where
  /-- Raised by a store read at or past STORE_LEN, which the spec calls a fatal design violation (R140,
  R141). Safe: the boot checks keep it out (R65). -/
  | storeRange
  /-- Raised by a bridge rule in a state that breaks 10_state.md R39: a buffer index past 511, a fifth LBA
  byte, a send with nothing remaining, a completion outside the pending states. Safe: unreachable. -/
  | malformedState
deriving DecidableEq, Repr

/-- Why an instruction is refused. -/
inductive Refusal where
  /-- Raised by an arm of `exec` whose instruction has no meaning yet. Safe: the machine stops. No arm raises it. -/
  | notModelled (mnemonic : String)
deriving DecidableEq, Repr

/-- A buffer of zeros. -/
def zeroBuffer : Buffer := ⟨List.replicate 512 0, List.length_replicate⟩

/-- R40: the coordinator after reset. -/
def resetCoord : Coord where
  inFlight := false
  result := .none
  op := .read
  opLba := 0

/-- R40: the bridge session after reset. DESIGN CHOICE (log 7): the bytes of `buf`, which the spec leaves unspecified. -/
def resetBridge : Bridge where
  state := .idle
  dir := .read
  addrCount := 0
  lba := 0
  cursor := 0
  remaining := 0
  buf := zeroBuffer
  status := 0x00
  lastCmd := 0x00
  seqValid := false
  seqDir := .read

/-- DESIGN CHOICE (log 7): the configuration before the boot scan, which the spec leaves unspecified (R16). -/
def resetCfg : Cfg where
  tag := 0
  scheme := .none
  bridgeEn := false
  romBase := 0
  romSize := 0
  stagedLen := 0

/-- DESIGN CHOICE (log 2): the parameters `State.reset` carries. CACHE_MAX, IO_NEEDS_SLOT and COORD_MODE
have the spec's defaults (R8). -/
def resetParams : Params where
  store := []
  storeLen := 0
  headerBase := 0
  nameLen := 0
  activeIndex := 0
  useCache := false
  cacheMax := Config.cacheMaxDefault
  ctrlPort := 0x60
  dataPort := 0x61
  ioNeedsSlot := false
  bridgeRomScheme := .none
  bridgeId := [0x50, 0x56]
  coordMode := .async
  neo8Switch := []
  neo16Switch := []
  polarity := ⟨true, true, true, true, true⟩

/-- R40, R250: every element of the core's own state at its reset value, around what reset leaves alone:
the parameters, the device, the environment's remaining offers and the count of draws. -/
def resetState (par : Params) (dev : Device) (inputs : List Instant) (draws : Nat) : State where
  par := par
  dev := dev
  inputs := inputs
  draws := draws
  phase := .boot
  fsm := .idle
  dout := 0
  cfg := resetCfg
  bank := Vector.replicate 6 0
  cache := []
  br := resetBridge
  co := resetCoord

/-- The machine right after reset (R40, R250). DESIGN CHOICE (logs 2, 8): its parameters and an absent device. -/
def State.reset : State := resetState resetParams ⟨false, 0⟩ [] 0

end Sys2Proof.Machine
end

