-- ==== Sys2Proof/Machine/Flags.lean ====
section
/-! DEFINITION. The status codes (30_encoding.md R74), the outputs (10_state.md R20) and the conditions
the rules test. The core has no condition-code register (R37). -/

namespace Sys2Proof.Machine

/-- R74: idle or collecting operands. -/
abbrev statusReady : Byte := 0x00
/-- R74: a block operation is in flight. -/
abbrev statusBusy : Byte := 0x01
/-- R74: response or block bytes remain to be read. -/
abbrev statusSending : Byte := 0x02
/-- R74: the last command failed. -/
abbrev statusError : Byte := 0xFF

/-- R20: `D_OE`, the data-bus output enable. -/
def dOE (s : State) : Bool := s.phase == .serve && s.fsm == .readHold

/-- R20: `D_OUT`, shown only while `D_OE`; `none` is the released bus. -/
def dOut (s : State) : Option Byte := if dOE s then some s.dout else none

/-- R20, R107: `WAIT_ACT`, the not-ready line at its logical level. -/
def waitAct (s : State) : Bool := s.phase == .boot

/-- R68, R107: the level of the WAIT pin (true is high). -/
def waitPin (s : State) : Bool := waitAct s != s.par.polarity.waitLow

/-- R171: an operation is pending. -/
def pending (br : Bridge) : Bool := br.state == .readPending || br.state == .writePending

/-- R115: the SCC sound region is mapped: `(bank[2] & 0x3F) = 0x3F`. -/
def soundOn (s : State) : Bool := s.bank[2] &&& 0x3F == 0x3F

/-- R160: a synchronous coordinator blocks the BUS step while an operation is in flight. -/
def syncBlocked (s : State) : Bool := s.par.coordMode == .sync && s.co.inFlight

/-- R234: a mount or a removal resets the session in configuration 10, and while BOOT has not yet said
which configuration it is (log 12). -/
def sessionLive (s : State) : Bool := s.cfg.bridgeEn || s.phase == .boot

end Sys2Proof.Machine
end

