-- ==== Sys2Proof/Machine/Ops.lean ====
section
/-! DEFINITION. The named operations: byte arrays and the store resolver (42_backing_store.md), the bus
driver (40_bus_signal.md), the generic cycles of the mapper (41_mapper.md R110 to R116), and the helpers
of the bridge and the coordinator (44_storage_bridge.md, 45_block_io.md).

The core takes no exception and has none to return from (60_exceptions.md R230, R237, R238); the one
shared error path is `failBridge` (R182). -/

namespace Sys2Proof.Machine

/-! ## Byte arrays -/

/-- The byte of a sparse array at an offset. -/
def Memory.read (m : Memory) (k : Nat) : Byte :=
  match m with
  | [] => Config.erased
  | (a, b) :: t => if a = k then b else Memory.read t k

/-- Offsets strictly rise from `lo` on, and no listed byte is the erased one. -/
def Memory.canonicalFrom (lo : Nat) (m : Memory) : Bool :=
  match m with
  | [] => true
  | (a, b) :: t => lo ≤ a && b != Config.erased && Memory.canonicalFrom (a + 1) t

/-- The canonical form of a byte array. -/
def Memory.wf (m : Memory) : Bool := Memory.canonicalFrom 0 m

/-- Every listed offset is below `n`. -/
def Memory.below (n : Nat) (m : Memory) : Bool := m.all fun c => c.1 < n

/-- The cells of `m` from offset `base`, `len` of them, moved to offset 0. -/
def Memory.slice (m : Memory) (base len : Nat) : Memory :=
  match m with
  | [] => []
  | (a, b) :: t =>
    if base ≤ a ∧ a < base + len then (a - base, b) :: Memory.slice t base len
    else Memory.slice t base len

/-- R256: `len` bytes of `src` from `base` copied over the first `len` bytes of `dst`. -/
def Memory.stage (dst src : Memory) (base len : Nat) : Memory :=
  Memory.slice src base len ++ dst.filter fun c => len ≤ c.1

/-! ## The store and its resolver -/

/-- R141: `StoreRead(off)`; no byte at or past STORE_LEN. -/
def storeRead (p : Params) (off : Nat) : Option Byte :=
  if off < p.storeLen then some (Memory.read p.store off) else none

/-- R143: `Resolve(off)`, from the cache below `staged_len`, else from the store. -/
def resolve (s : State) (off : Nat) : Option Byte :=
  let rel := off - s.cfg.romBase.toNat
  if rel < s.cfg.stagedLen.toNat then some (Memory.read s.cache rel)
  else storeRead s.par off

/-! ## The bus driver and the named updates of State -/

/-- R100: `Sample()`, the logical snapshot of the pin levels. -/
def sampleBus (p : Params) (pins : SampleWord) : Snapshot :=
  Snapshot.ofWord (pins ^^^ polarityMask p.polarity)

/-- R68: the pin levels that carry a logical sample word. -/
def pinsOf (p : Params) (w : SampleWord) : SampleWord := w ^^^ polarityMask p.polarity

/-- R101: `Drive(b)`. -/
def drive (b : Byte) (s : State) : State := { s with dout := b, fsm := .readHold }

/-- R102, R156: the FSM back to IDLE, the data bus released. -/
def release (s : State) : State := { s with fsm := .idle }

/-- R154, R158: a served write holds until WR deasserts. -/
def holdWrite (s : State) : State := { s with fsm := .writeHold }

/-- R116: `bank[r] <- v`. -/
def setBank (r : Fin 6) (v : BankReg) (s : State) : State := { s with bank := s.bank.set r v }

/-- The bridge session replaced. -/
def setBridge (br : Bridge) (s : State) : State := { s with br := br }

/-- The coordinator replaced. -/
def setCoord (co : Coord) (s : State) : State := { s with co := co }

/-- The backend's inputs replaced. -/
def setDevice (dev : Device) (s : State) : State := { s with dev := dev }

/-- The environment's offers replaced. -/
def setInputs (inputs : List Instant) (s : State) : State := { s with inputs := inputs }

/-- One draw of the free values taken (log 10). -/
def nextDraw (s : State) : State := { s with draws := s.draws + 1 }

/-! ## The mapper's generic cycles -/

/-- R110: the result of `MapRead`. -/
inductive ReadResult where
  | none
  | byte (off : Nat)
  | fill
  | unspec
deriving DecidableEq, Repr

/-- R113: `Bounded(rel)`. -/
def bounded (s : State) (rel : Nat) : ReadResult :=
  if rel < s.cfg.romSize.toNat then .byte (s.cfg.romBase.toNat + rel) else .fill

/-- R112: register `i` as an unsigned number of `w` bits. -/
def bankValue (s : State) (i : Fin 6) (w : Nat) : Nat := s.bank[i].toNat % 2 ^ w

/-- R115, R152: a read whose response is a draw: no response, or any byte driven. -/
def drawCycle (s : State) : State :=
  if Config.soundDrives s.draws then drive (Config.soundByte s.draws) (nextDraw s) else nextDraw s

/-- R152: what a memory read does with the mapper's result. -/
def serveRead (r : ReadResult) (s : State) : Host.Outcome State Fault Refusal :=
  match r with
  | .none => .next s
  | .byte off =>
    match resolve s off with
    | some b => .next (drive b s)
    | none => .fault .storeRange
  | .fill => .next (drive Config.sentinel s)
  | .unspec => .next (drawCycle s)

/-- R111: a read at offset `rel` of a flat window. -/
def flatCycle (rel : Nat) (s : State) : Host.Outcome State Fault Refusal :=
  serveRead (bounded s rel) s

/-- R112: a read at offset `off` of window `i`, with window size `wsize` and register width `w`. -/
def segCycle (i : Fin 6) (w wsize off : Nat) (s : State) : Host.Outcome State Fault Refusal :=
  serveRead (bounded s (bankValue s i w * wsize + off)) s

/-- R116, R154: a switch write of byte `d` to a lane of register `r` of `w` bits. -/
def switchCycle (w : Nat) (r : Fin 6) (lane : Lane) (d : Byte) (s : State) : Host.Outcome State Fault Refusal :=
  .next (holdWrite (setBank r (laneValue w lane s.bank[r] d) s))

/-- R131, R133: a write looked up in a switch table of the fine schemes. -/
def tableCycle (t : List SwitchEntry) (a : Addr) (d : Byte) (s : State) : Host.Outcome State Fault Refusal :=
  match findEntry t a with
  | some e => switchCycle 12 e.reg e.lane d s
  | none => .next s

/-! ## The coordinator's start -/

/-- R211: `Start(kind, lba)`; `none` is a rejection. -/
def start (kind : Dir) (lba : U32) (s : State) : Option State :=
  if s.co.inFlight || !s.dev.ready || s.dev.capacity.toNat ≤ lba.toNat then none
  else some (setCoord ⟨true, .none, kind, lba⟩ s)

/-! ## The bridge's helpers -/

/-- R182: `Fail()` on the session. -/
def failBridge (br : Bridge) : Bridge :=
  { br with state := .idle, status := statusError, seqValid := false, addrCount := 0, cursor := 0, remaining := 0 }

/-- R182: `Fail()`. -/
def failOp (s : State) : State := setBridge (failBridge s.br) s

/-- R182: the pending state of a direction. -/
def pendingState (kind : Dir) : BrState :=
  match kind with
  | .read => .readPending
  | .write => .writePending

/-- R182: `Issue(kind, lba)`. -/
def issue (kind : Dir) (lba : U32) (s : State) : State :=
  match start kind lba s with
  | some t => setBridge { t.br with lba := lba, state := pendingState kind, status := statusBusy } t
  | none => failOp s

/-- One byte of the buffer replaced; an index past 511 replaces none. -/
def Buffer.put (buf : Buffer) (k : Nat) (b : Byte) : Buffer :=
  ⟨buf.bytes.set k b, (List.length_set ..).trans buf.size⟩

/-- R175: the response bytes written over the first bytes of the buffer, from index `k` on. -/
def loadBytes (buf : Buffer) (k : Nat) (bytes : List Byte) : Buffer :=
  match bytes with
  | [] => buf
  | b :: t => loadBytes (buf.put k b) (k + 1) t

/-- R175: `Send(bytes)` on the session. -/
def sendBridge (bytes : List Byte) (br : Bridge) : Bridge :=
  { br with buf := loadBytes br.buf 0 bytes, cursor := 0, remaining := bytes.length, state := .sending, status := statusSending }

/-- R175: `Send(bytes)`. -/
def sendOp (bytes : List Byte) (s : State) : State := setBridge (sendBridge bytes s.br) s

/-- R170, R172, R173: what every recognised command does to the session before its own body: the cursor
invalid, the command recorded, the transfer in progress dropped (log 11). -/
def takeCommand (d : Byte) (br : Bridge) : Bridge :=
  { br with seqValid := false, lastCmd := d, state := .idle, addrCount := 0, cursor := 0, remaining := 0 }

/-- R158, R170, R171: a control-port write of the recognised command `d`, whose body takes the sequential
cursor as it was before the command. Ignored while an operation is pending; held for WR in every case. -/
def commandCycle (d : Byte) (body : Bool → Dir → State → State) (s : State) : Host.Outcome State Fault Refusal :=
  if pending s.br then .next (holdWrite s)
  else .next (holdWrite (body s.br.seqValid s.br.seqDir (setBridge (takeCommand d s.br) s)))

/-- R174: the body of INIT. -/
def cmdInit (s : State) : State :=
  setBridge { s.br with state := .idle, addrCount := 0, cursor := 0, remaining := 0, status := if s.dev.ready then statusReady else statusError } s

/-- R176: the body of GET_ID. -/
def cmdGetId (s : State) : State := sendOp s.par.bridgeId s

/-- R177: the body of GET_CAP. -/
def cmdGetCap (s : State) : State :=
  if s.dev.ready then sendOp (le32Bytes s.dev.capacity) s else failOp s

/-- R178, R180: the body of READ_BLOCK and WRITE_BLOCK, which opens the address phase. -/
def cmdBlock (dir : Dir) (s : State) : State :=
  setBridge { s.br with state := .awaitAddr, dir := dir, addrCount := 0, lba := 0, status := statusReady } s

/-- R179: the body of READ_NEXT; the LBA wraps modulo 2^32. -/
def cmdReadNext (oldValid : Bool) (oldDir : Dir) (s : State) : State :=
  if oldValid && oldDir == .read then issue .read (s.br.lba + 1) s else failOp s

/-- R181: the body of WRITE_NEXT. -/
def cmdWriteNext (oldValid : Bool) (oldDir : Dir) (s : State) : State :=
  if oldValid && oldDir == .write then
    setBridge { s.br with lba := s.br.lba + 1, state := .awaitPayload, cursor := 0, status := statusReady } s
  else failOp s

/-- R186: `EndAddr()`. -/
def endAddr (s : State) : State :=
  match s.br.dir with
  | .read => issue .read s.br.lba s
  | .write => setBridge { s.br with state := .awaitPayload, cursor := 0, status := statusReady } s

/-- R185: the session after LBA byte number `addrCount`. -/
def addrBridge (d : Byte) (br : Bridge) : Bridge :=
  { br with lba := br.lba ||| (d.setWidth 32 <<< (8 * br.addrCount)), addrCount := br.addrCount + 1 }

/-- R185: `AddrByte(d)`. A fifth byte is a malformed state (R39 item 5). -/
def addrByte (d : Byte) (s : State) : Host.Outcome State Fault Refusal :=
  if s.br.addrCount < 3 then .next (holdWrite (setBridge (addrBridge d s.br) s))
  else if s.br.addrCount = 3 then .next (holdWrite (endAddr (setBridge (addrBridge d s.br) s)))
  else .fault .malformedState

/-- R187: the session after payload byte number `cursor`. -/
def payloadBridge (d : Byte) (br : Bridge) : Bridge :=
  { br with buf := br.buf.put br.cursor d, cursor := br.cursor + 1 }

/-- R187, R188: `PayloadByte(d)`. A 513th byte is a malformed state (R39 item 5). -/
def payloadByte (d : Byte) (s : State) : Host.Outcome State Fault Refusal :=
  if s.br.cursor < 511 then .next (holdWrite (setBridge (payloadBridge d s.br) s))
  else if s.br.cursor = 511 then .next (holdWrite (issue .write s.br.lba (setBridge (payloadBridge d s.br) s)))
  else .fault .malformedState

/-- R158, R184, R189: a data-port write of byte `d`. -/
def dataWriteCycle (d : Byte) (s : State) : Host.Outcome State Fault Refusal :=
  match s.br.state with
  | .awaitAddr => addrByte d s
  | .awaitPayload => payloadByte d s
  | .idle => .next (holdWrite s)
  | .sending => .next (holdWrite s)
  | .readPending => .next (holdWrite s)
  | .writePending => .next (holdWrite s)

/-- R196: the session after one byte of the response is read. -/
def sentBridge (br : Bridge) : Bridge :=
  if br.remaining = 1 then { br with cursor := br.cursor + 1, remaining := 0, state := .idle, status := statusReady }
  else { br with cursor := br.cursor + 1, remaining := br.remaining - 1 }

/-- R196: a data-port read in SENDING. An index past 511, or nothing remaining, is a malformed state (R39 item 4). -/
def sendingCycle (s : State) : Host.Outcome State Fault Refusal :=
  match s.br.buf.bytes[s.br.cursor]? with
  | some b => if s.br.remaining = 0 then .fault .malformedState else .next (drive b (setBridge (sentBridge s.br) s))
  | none => .fault .malformedState

end Sys2Proof.Machine
end

