-- ==== Sys2Proof/Machine/Boot.lean ====
section
/-! DEFINITION. The boot sequence (70_reset_and_hazards.md R252 to R258): header scan, checks, staging and
entry to SERVE, as one BOOT step (log 13). -/

namespace Sys2Proof.Machine

/-- R78: the length of a header record. -/
def recLen (p : Params) : Nat := p.nameLen + 9

/-- R253: the result of reading a header record. -/
inductive HeaderRecord where
  | missing
  | terminator
  | valid (tag : Byte) (size : U32) (offset : U32)
deriving DecidableEq, Repr

/-- R79: the `n` bytes of the store from offset `a` are all 0xFF. -/
def allErased (p : Params) (a n : Nat) : Bool :=
  match n with
  | 0 => true
  | n + 1 => Memory.read p.store (a + n) == 0xFF && allErased p a n

/-- R54, R253: the little-endian field at offset `a` of the store. -/
def storeLe32 (p : Params) (a : Nat) : U32 :=
  le32 (Memory.read p.store a) (Memory.read p.store (a + 1)) (Memory.read p.store (a + 2)) (Memory.read p.store (a + 3))

/-- R253: `ReadRecord(i)`. -/
def readRecord (p : Params) (i : Nat) : HeaderRecord :=
  let a := p.headerBase + i * recLen p
  if p.storeLen < a + recLen p then .missing
  else if allErased p a (recLen p) then .terminator
  else .valid (Memory.read p.store (a + p.nameLen)) (storeLe32 p (a + p.nameLen + 1)) (storeLe32 p (a + p.nameLen + 5))

/-- R254: records 0 to `j` all exist. -/
def recordsUpTo (p : Params) (j : Nat) : Bool :=
  let here :=
    match readRecord p j with
    | .valid _ _ _ => true
    | .missing => false
    | .terminator => false
  match j with
  | 0 => here
  | k + 1 => recordsUpTo p k && here

/-- R16, R76, R254: the memory-side scheme of a valid tag; tag 10 takes the parameter. -/
def bootScheme (p : Params) (tag : Byte) : Option Scheme :=
  if tag = 10 then some p.bridgeRomScheme else schemeOfTag tag

/-- R142: `staged_len`. -/
def stagedLength (p : Params) (size : U32) : U32 :=
  if p.useCache then BitVec.ofNat 32 (min size.toNat p.cacheMax) else 0

/-- R254: `BootConfigure()`; `none` is one of the three fatal configuration errors. -/
def bootConfigure (p : Params) : Option Cfg :=
  if recordsUpTo p p.activeIndex then
    match readRecord p p.activeIndex with
    | .valid tag size offset =>
      match bootScheme p tag with
      | some sch =>
        if offset.toNat + size.toNat ≤ p.storeLen then
          some ⟨tag, sch, tag == 10, offset, size, stagedLength p size⟩
        else none
      | none => none
    | .missing => none
    | .terminator => none
  else none

/-- R255: `Halt()`. -/
def halt (s : State) : State := { s with phase := .halt }

/-- R254: `cfg` written. -/
def setCfg (cfg : Cfg) (s : State) : State := { s with cfg := cfg }

/-- R256: the staging copy. -/
def stage (s : State) : State :=
  { s with cache := Memory.stage s.cache s.par.store s.cfg.romBase.toNat s.cfg.stagedLen.toNat }

/-- R22, R257: the ascending mapping in the registers the scheme has. -/
def ascendingBanks (sch : Scheme) (old : Vector BankReg 6) : Vector BankReg 6 :=
  Vector.ofFn fun i => if i.val < numBanks sch then BitVec.ofNat 12 i.val else old[i]

/-- R257: mapper initialisation and entry to SERVE. -/
def enterServe (s : State) : State :=
  { s with bank := ascendingBanks s.cfg.scheme s.bank, fsm := .idle, phase := .serve }

/-- R252: the boot sequence in its order; enabled only in phase BOOT. -/
def bootEvent (s : State) : State :=
  match s.phase with
  | .boot =>
    match bootConfigure s.par with
    | some cfg => enterServe (stage (setCfg cfg s))
    | none => halt s
  | .serve => s
  | .halt => s

end Sys2Proof.Machine
end

