-- ==== Sys2Proof/Machine/Coordinator.lean ====
section
/-! DEFINITION. The BACKEND's completion, the BUS side's absorption of it, mount, removal and reset
(45_block_io.md R213, R214, R217, R218; 70_reset_and_hazards.md R250). An event that is not enabled
changes nothing (log 3). -/

namespace Sys2Proof.Machine

/-- R213: `Complete(ok, data)`, enabled exactly while an operation is in flight. -/
def completeEvent (ok : Bool) (data : Buffer) (s : State) : State :=
  if s.co.inFlight then
    setCoord { s.co with inFlight := false, result := if ok then .ready else .failed }
      (if ok && s.co.op == .read then setBridge { s.br with buf := data } s else s)
  else s

/-- R214: the session after a successful block read. -/
def readReady (br : Bridge) : Bridge :=
  { br with state := .sending, cursor := 0, remaining := 512, status := statusSending, seqValid := true, seqDir := .read }

/-- R214: the session after a successful block write. -/
def writeReady (br : Bridge) : Bridge :=
  { br with state := .idle, status := statusReady, seqValid := true, seqDir := .write }

/-- The coordinator's result consumed. -/
def clearResult (s : State) : State := setCoord { s.co with result := .none } s

/-- R214: `AbsorbCompletion()`. A READY result outside the pending states is a malformed state (R39 item 2). -/
def absorb (s : State) : Host.Outcome State Fault Refusal :=
  if s.co.inFlight then .next s
  else
    match s.co.result with
    | .none => .next s
    | .failed => .next (failOp (clearResult s))
    | .ready =>
      match s.br.state with
      | .readPending => .next (setBridge (readReady s.br) (clearResult s))
      | .writePending => .next (setBridge (writeReady s.br) (clearResult s))
      | .idle => .fault .malformedState
      | .awaitAddr => .fault .malformedState
      | .sending => .fault .malformedState
      | .awaitPayload => .fault .malformedState

/-- R217, R218: the session and the coordinator reset on a device event, with the status it leaves. -/
def dropSession (status : Byte) (s : State) : State :=
  setCoord { s.co with inFlight := false, result := .none }
    (setBridge { s.br with state := .idle, status := status, seqValid := false, addrCount := 0, cursor := 0, remaining := 0 } s)

/-- R217, R234: `Mount(c)`, enabled when no device is ready. -/
def mountEvent (c : U32) (s : State) : State :=
  if s.dev.ready then s
  else
    let t := setDevice ⟨true, c⟩ s
    if sessionLive s then dropSession statusReady t else t

/-- R218, R234: `Remove()`, enabled when a device is ready. -/
def removeEvent (s : State) : State :=
  if s.dev.ready then
    let t := setDevice { s.dev with ready := false } s
    if sessionLive s then dropSession statusError t else t
  else s

/-- R250: the external reset. The parameters, the device, the environment's remaining offers and the count
of draws are not the core's to reset (log 22). -/
def resetEvent (s : State) : State := resetState s.par s.dev s.inputs s.draws

end Sys2Proof.Machine
end

