-- ==== Sys2Proof/Machine/BridgeCommand.lean ====
section
/-! DEFINITION. Control-port writes: the bridge commands (44_storage_bridge.md R170 to R183). -/

namespace Sys2Proof.Machine

/-- R174, `IW.CTRL.INIT`. -/
def execIwCtrlInit (s : State) : Host.Outcome State Fault Refusal :=
  commandCycle 0x01 (fun _ _ => cmdInit) s

/-- R176, `IW.CTRL.GET_ID`. -/
def execIwCtrlGetId (s : State) : Host.Outcome State Fault Refusal :=
  commandCycle 0x03 (fun _ _ => cmdGetId) s

/-- R177, `IW.CTRL.GET_CAP`. -/
def execIwCtrlGetCap (s : State) : Host.Outcome State Fault Refusal :=
  commandCycle 0x05 (fun _ _ => cmdGetCap) s

/-- R178, `IW.CTRL.READ_BLOCK`. -/
def execIwCtrlReadBlock (s : State) : Host.Outcome State Fault Refusal :=
  commandCycle 0x06 (fun _ _ => cmdBlock .read) s

/-- R179, `IW.CTRL.READ_NEXT`. -/
def execIwCtrlReadNext (s : State) : Host.Outcome State Fault Refusal :=
  commandCycle 0x07 cmdReadNext s

/-- R180, `IW.CTRL.WRITE_BLOCK`. -/
def execIwCtrlWriteBlock (s : State) : Host.Outcome State Fault Refusal :=
  commandCycle 0x08 (fun _ _ => cmdBlock .write) s

/-- R181, `IW.CTRL.WRITE_NEXT`. -/
def execIwCtrlWriteNext (s : State) : Host.Outcome State Fault Refusal :=
  commandCycle 0x09 cmdWriteNext s

/-- R183, `IW.CTRL.unrecognised`: ignored, no field of the session changes; held for WR. -/
def execIwCtrlUnrecognised (_d : Byte) (s : State) : Host.Outcome State Fault Refusal :=
  .next (holdWrite s)

end Sys2Proof.Machine
end

