-- ==== Sys2Proof/Machine/BridgePort.lean ====
section
/-! DEFINITION. The other accesses to the two bridge ports (44_storage_bridge.md R184 to R197). -/

namespace Sys2Proof.Machine

/-- R195, `IR.CTRL.status`: drives the status; no side effect. -/
def execIrCtrlStatus (s : State) : Host.Outcome State Fault Refusal :=
  .next (drive s.br.status s)

/-- R184, `IW.DATA` to R189: an LBA byte, a payload byte, or ignored. -/
def execIwData (d : Byte) (s : State) : Host.Outcome State Fault Refusal :=
  dataWriteCycle d s

/-- R196, `IR.DATA.sending`: drives the next byte of the response and consumes it. -/
def execIrDataSending (s : State) : Host.Outcome State Fault Refusal :=
  sendingCycle s

/-- R197, `IR.DATA.other`: drives the sentinel and changes nothing else. -/
def execIrDataOther (s : State) : Host.Outcome State Fault Refusal :=
  .next (drive Config.sentinel s)

end Sys2Proof.Machine
end

