-- ==== Sys2Proof/Machine/FlatRead.lean ====
section
/-! DEFINITION. Reads of the flat schemes (41_mapper.md R118 to R120): the payload offset is the address less the start of
the window. -/

namespace Sys2Proof.Machine

/-- R118, `MR.FLAT16`. -/
def execMrFlat16 (off : BitVec 14) (s : State) : Host.Outcome State Fault Refusal :=
  flatCycle (0x0000 + off.toNat) s

/-- R119, `MR.FLAT32.lo`. -/
def execMrFlat32Lo (off : BitVec 14) (s : State) : Host.Outcome State Fault Refusal :=
  flatCycle (0x0000 + off.toNat) s

/-- R119, `MR.FLAT32.hi`. -/
def execMrFlat32Hi (off : BitVec 14) (s : State) : Host.Outcome State Fault Refusal :=
  flatCycle (0x4000 + off.toNat) s

/-- R120, `MR.LINEAR0.part0`. -/
def execMrLinear0Part0 (off : BitVec 14) (s : State) : Host.Outcome State Fault Refusal :=
  flatCycle (0x0000 + off.toNat) s

/-- R120, `MR.LINEAR0.part1`. -/
def execMrLinear0Part1 (off : BitVec 14) (s : State) : Host.Outcome State Fault Refusal :=
  flatCycle (0x4000 + off.toNat) s

/-- R120, `MR.LINEAR0.part2`. -/
def execMrLinear0Part2 (off : BitVec 14) (s : State) : Host.Outcome State Fault Refusal :=
  flatCycle (0x8000 + off.toNat) s

end Sys2Proof.Machine
end

