-- ==== Sys2Proof/Machine/Ignored.lean ====
section
/-! DEFINITION. The cycles the core does not serve: classes with no cycle of its own (43_transaction_loop.md R151, R158) and
memory accesses outside every window and switch range (41_mapper.md R114, R116, R117). -/

namespace Sys2Proof.Machine

/-- R151, `NOISE`: both strobes active, ignored as transient noise. -/
def execNoise (s : State) : Host.Outcome State Fault Refusal :=
  .next s

/-- R151, `NO_CYCLE`: no strobe, nothing to answer. -/
def execNoCycle (s : State) : Host.Outcome State Fault Refusal :=
  .next s

/-- R151, `UNSELECTED_RD`: a read strobe that does not address this device. -/
def execUnselectedRd (s : State) : Host.Outcome State Fault Refusal :=
  .next s

/-- R151, `UNSELECTED_WR`: a write strobe that does not address this device. -/
def execUnselectedWr (s : State) : Host.Outcome State Fault Refusal :=
  .next s

/-- R114, `MEM_READ.unserved`: outside every window, no response. -/
def execMemReadUnserved (_a : Addr) (s : State) : Host.Outcome State Fault Refusal :=
  serveRead .none s

/-- R117, `MW.other`, R154: `NOT_SWITCH`; no bank register changes and the FSM does not hold. -/
def execMwOther (_a : Addr) (_d : Byte) (s : State) : Host.Outcome State Fault Refusal :=
  .next s

/-- R116, `MW.SCC.sound`: `NOT_SWITCH` in the sound region; what the sound channel does is not in any source (log 20). -/
def execMwSccSound (_off : BitVec 11) (_d : Byte) (s : State) : Host.Outcome State Fault Refusal :=
  .next s

/-- R158, `IO.other_port`: neither bridge port, or no bridge; unserved. -/
def execIoOtherPort (_isWrite : Bool) (_port : Port) (s : State) : Host.Outcome State Fault Refusal :=
  .next s

end Sys2Proof.Machine
end

