-- ==== Sys2Proof/Machine/SegRead.lean ====
section
/-! DEFINITION. Reads of the segmented schemes (41_mapper.md R122 to R132) and of the SCC sound region (R115). -/

namespace Sys2Proof.Machine

/-- R122, `MR.SCC.bank0`. -/
def execMrSccBank0 (off : BitVec 13) (s : State) : Host.Outcome State Fault Refusal :=
  segCycle 0 8 0x2000 off.toNat s

/-- R122, `MR.SCC.bank1`. -/
def execMrSccBank1 (off : BitVec 13) (s : State) : Host.Outcome State Fault Refusal :=
  segCycle 1 8 0x2000 off.toNat s

/-- R122, `MR.SCC.bank2`. -/
def execMrSccBank2 (off : BitVec 13) (s : State) : Host.Outcome State Fault Refusal :=
  segCycle 2 8 0x2000 off.toNat s

/-- R122, `MR.SCC.bank3`. -/
def execMrSccBank3 (off : BitVec 13) (s : State) : Host.Outcome State Fault Refusal :=
  segCycle 3 8 0x2000 off.toNat s

/-- R124, `MR.KONAMI.bank0`. -/
def execMrKonamiBank0 (off : BitVec 13) (s : State) : Host.Outcome State Fault Refusal :=
  segCycle 0 8 0x2000 off.toNat s

/-- R124, `MR.KONAMI.bank1`. -/
def execMrKonamiBank1 (off : BitVec 13) (s : State) : Host.Outcome State Fault Refusal :=
  segCycle 1 8 0x2000 off.toNat s

/-- R124, `MR.KONAMI.bank2`. -/
def execMrKonamiBank2 (off : BitVec 13) (s : State) : Host.Outcome State Fault Refusal :=
  segCycle 2 8 0x2000 off.toNat s

/-- R124, `MR.KONAMI.bank3`. -/
def execMrKonamiBank3 (off : BitVec 13) (s : State) : Host.Outcome State Fault Refusal :=
  segCycle 3 8 0x2000 off.toNat s

/-- R126, `MR.ASCII8.bank0`. -/
def execMrAscii8Bank0 (off : BitVec 13) (s : State) : Host.Outcome State Fault Refusal :=
  segCycle 0 8 0x2000 off.toNat s

/-- R126, `MR.ASCII8.bank1`. -/
def execMrAscii8Bank1 (off : BitVec 13) (s : State) : Host.Outcome State Fault Refusal :=
  segCycle 1 8 0x2000 off.toNat s

/-- R126, `MR.ASCII8.bank2`. -/
def execMrAscii8Bank2 (off : BitVec 13) (s : State) : Host.Outcome State Fault Refusal :=
  segCycle 2 8 0x2000 off.toNat s

/-- R126, `MR.ASCII8.bank3`. -/
def execMrAscii8Bank3 (off : BitVec 13) (s : State) : Host.Outcome State Fault Refusal :=
  segCycle 3 8 0x2000 off.toNat s

/-- R130, `MR.NEO8.bank0`. -/
def execMrNeo8Bank0 (off : BitVec 13) (s : State) : Host.Outcome State Fault Refusal :=
  segCycle 0 12 0x2000 off.toNat s

/-- R130, `MR.NEO8.bank1`. -/
def execMrNeo8Bank1 (off : BitVec 13) (s : State) : Host.Outcome State Fault Refusal :=
  segCycle 1 12 0x2000 off.toNat s

/-- R130, `MR.NEO8.bank2`. -/
def execMrNeo8Bank2 (off : BitVec 13) (s : State) : Host.Outcome State Fault Refusal :=
  segCycle 2 12 0x2000 off.toNat s

/-- R130, `MR.NEO8.bank3`. -/
def execMrNeo8Bank3 (off : BitVec 13) (s : State) : Host.Outcome State Fault Refusal :=
  segCycle 3 12 0x2000 off.toNat s

/-- R130, `MR.NEO8.bank4`. -/
def execMrNeo8Bank4 (off : BitVec 13) (s : State) : Host.Outcome State Fault Refusal :=
  segCycle 4 12 0x2000 off.toNat s

/-- R130, `MR.NEO8.bank5`. -/
def execMrNeo8Bank5 (off : BitVec 13) (s : State) : Host.Outcome State Fault Refusal :=
  segCycle 5 12 0x2000 off.toNat s

/-- R128, `MR.ASCII16.bank0`. -/
def execMrAscii16Bank0 (off : BitVec 14) (s : State) : Host.Outcome State Fault Refusal :=
  segCycle 0 8 0x4000 off.toNat s

/-- R128, `MR.ASCII16.bank1`. -/
def execMrAscii16Bank1 (off : BitVec 14) (s : State) : Host.Outcome State Fault Refusal :=
  segCycle 1 8 0x4000 off.toNat s

/-- R132, `MR.NEO16.bank0`. -/
def execMrNeo16Bank0 (off : BitVec 14) (s : State) : Host.Outcome State Fault Refusal :=
  segCycle 0 12 0x4000 off.toNat s

/-- R132, `MR.NEO16.bank1`. -/
def execMrNeo16Bank1 (off : BitVec 14) (s : State) : Host.Outcome State Fault Refusal :=
  segCycle 1 12 0x4000 off.toNat s

/-- R132, `MR.NEO16.bank2`. -/
def execMrNeo16Bank2 (off : BitVec 14) (s : State) : Host.Outcome State Fault Refusal :=
  segCycle 2 12 0x4000 off.toNat s

/-- R115, `MR.SCC.sound`: the response is a draw (log 10). -/
def execMrSccSound (_off : BitVec 11) (s : State) : Host.Outcome State Fault Refusal :=
  serveRead .unspec s

end Sys2Proof.Machine
end

