-- ==== Sys2Proof/Machine/SwitchWrite.lean ====
section
/-! DEFINITION. Bank-switch writes (41_mapper.md R116, R123 to R133). Every address of a range commits the same register. -/

namespace Sys2Proof.Machine

/-- R123, `MW.SCC.bank0`. -/
def execMwSccBank0 (_off : BitVec 11) (d : Byte) (s : State) : Host.Outcome State Fault Refusal :=
  switchCycle 8 0 .all d s

/-- R123, `MW.SCC.bank1`. -/
def execMwSccBank1 (_off : BitVec 11) (d : Byte) (s : State) : Host.Outcome State Fault Refusal :=
  switchCycle 8 1 .all d s

/-- R123, `MW.SCC.bank2`. -/
def execMwSccBank2 (_off : BitVec 11) (d : Byte) (s : State) : Host.Outcome State Fault Refusal :=
  switchCycle 8 2 .all d s

/-- R123, `MW.SCC.bank3`. -/
def execMwSccBank3 (_off : BitVec 11) (d : Byte) (s : State) : Host.Outcome State Fault Refusal :=
  switchCycle 8 3 .all d s

/-- R127, `MW.ASCII8.bank0`. -/
def execMwAscii8Bank0 (_off : BitVec 11) (d : Byte) (s : State) : Host.Outcome State Fault Refusal :=
  switchCycle 8 0 .all d s

/-- R127, `MW.ASCII8.bank1`. -/
def execMwAscii8Bank1 (_off : BitVec 11) (d : Byte) (s : State) : Host.Outcome State Fault Refusal :=
  switchCycle 8 1 .all d s

/-- R127, `MW.ASCII8.bank2`. -/
def execMwAscii8Bank2 (_off : BitVec 11) (d : Byte) (s : State) : Host.Outcome State Fault Refusal :=
  switchCycle 8 2 .all d s

/-- R127, `MW.ASCII8.bank3`. -/
def execMwAscii8Bank3 (_off : BitVec 11) (d : Byte) (s : State) : Host.Outcome State Fault Refusal :=
  switchCycle 8 3 .all d s

/-- R129, `MW.ASCII16.bank0`. -/
def execMwAscii16Bank0 (_off : BitVec 11) (d : Byte) (s : State) : Host.Outcome State Fault Refusal :=
  switchCycle 8 0 .all d s

/-- R129, `MW.ASCII16.bank1`. -/
def execMwAscii16Bank1 (_off : BitVec 11) (d : Byte) (s : State) : Host.Outcome State Fault Refusal :=
  switchCycle 8 1 .all d s

/-- R125, `MW.KONAMI.bank1`. -/
def execMwKonamiBank1 (_off : BitVec 13) (d : Byte) (s : State) : Host.Outcome State Fault Refusal :=
  switchCycle 8 1 .all d s

/-- R125, `MW.KONAMI.bank2`. -/
def execMwKonamiBank2 (_off : BitVec 13) (d : Byte) (s : State) : Host.Outcome State Fault Refusal :=
  switchCycle 8 2 .all d s

/-- R125, `MW.KONAMI.bank3`. -/
def execMwKonamiBank3 (_off : BitVec 13) (d : Byte) (s : State) : Host.Outcome State Fault Refusal :=
  switchCycle 8 3 .all d s

/-- R131, `MW.NEO8.switch`: one lane of one 12-bit register. -/
def execMwNeo8Switch (a : Addr) (d : Byte) (s : State) : Host.Outcome State Fault Refusal :=
  tableCycle s.par.neo8Switch a d s

/-- R133, `MW.NEO16.switch`: one lane of one 12-bit register. -/
def execMwNeo16Switch (a : Addr) (d : Byte) (s : State) : Host.Outcome State Fault Refusal :=
  tableCycle s.par.neo16Switch a d s

end Sys2Proof.Machine
end

