-- ==== Sys2Proof/Machine/Dispatch.lean ====
section
/-! DEFINITION. The dispatch: one arm per row of the opcode table, each one call of that row's meaning. -/

namespace Sys2Proof.Machine

def exec (i : Instr) (s : State) : Host.Outcome State Fault Refusal :=
  match i with
  | .noise => Sys2Proof.Machine.execNoise s
  | .noCycle => Sys2Proof.Machine.execNoCycle s
  | .unselectedRd => Sys2Proof.Machine.execUnselectedRd s
  | .unselectedWr => Sys2Proof.Machine.execUnselectedWr s
  | .mrFlat16 off => Sys2Proof.Machine.execMrFlat16 off s
  | .mrFlat32Lo off => Sys2Proof.Machine.execMrFlat32Lo off s
  | .mrFlat32Hi off => Sys2Proof.Machine.execMrFlat32Hi off s
  | .mrLinear0Part0 off => Sys2Proof.Machine.execMrLinear0Part0 off s
  | .mrLinear0Part1 off => Sys2Proof.Machine.execMrLinear0Part1 off s
  | .mrLinear0Part2 off => Sys2Proof.Machine.execMrLinear0Part2 off s
  | .mrSccBank0 off => Sys2Proof.Machine.execMrSccBank0 off s
  | .mrSccBank1 off => Sys2Proof.Machine.execMrSccBank1 off s
  | .mrSccBank2 off => Sys2Proof.Machine.execMrSccBank2 off s
  | .mrSccBank3 off => Sys2Proof.Machine.execMrSccBank3 off s
  | .mrKonamiBank0 off => Sys2Proof.Machine.execMrKonamiBank0 off s
  | .mrKonamiBank1 off => Sys2Proof.Machine.execMrKonamiBank1 off s
  | .mrKonamiBank2 off => Sys2Proof.Machine.execMrKonamiBank2 off s
  | .mrKonamiBank3 off => Sys2Proof.Machine.execMrKonamiBank3 off s
  | .mrAscii8Bank0 off => Sys2Proof.Machine.execMrAscii8Bank0 off s
  | .mrAscii8Bank1 off => Sys2Proof.Machine.execMrAscii8Bank1 off s
  | .mrAscii8Bank2 off => Sys2Proof.Machine.execMrAscii8Bank2 off s
  | .mrAscii8Bank3 off => Sys2Proof.Machine.execMrAscii8Bank3 off s
  | .mrAscii16Bank0 off => Sys2Proof.Machine.execMrAscii16Bank0 off s
  | .mrAscii16Bank1 off => Sys2Proof.Machine.execMrAscii16Bank1 off s
  | .mrNeo8Bank0 off => Sys2Proof.Machine.execMrNeo8Bank0 off s
  | .mrNeo8Bank1 off => Sys2Proof.Machine.execMrNeo8Bank1 off s
  | .mrNeo8Bank2 off => Sys2Proof.Machine.execMrNeo8Bank2 off s
  | .mrNeo8Bank3 off => Sys2Proof.Machine.execMrNeo8Bank3 off s
  | .mrNeo8Bank4 off => Sys2Proof.Machine.execMrNeo8Bank4 off s
  | .mrNeo8Bank5 off => Sys2Proof.Machine.execMrNeo8Bank5 off s
  | .mrNeo16Bank0 off => Sys2Proof.Machine.execMrNeo16Bank0 off s
  | .mrNeo16Bank1 off => Sys2Proof.Machine.execMrNeo16Bank1 off s
  | .mrNeo16Bank2 off => Sys2Proof.Machine.execMrNeo16Bank2 off s
  | .mrSccSound off => Sys2Proof.Machine.execMrSccSound off s
  | .mwSccBank0 off d => Sys2Proof.Machine.execMwSccBank0 off d s
  | .mwSccBank1 off d => Sys2Proof.Machine.execMwSccBank1 off d s
  | .mwSccBank2 off d => Sys2Proof.Machine.execMwSccBank2 off d s
  | .mwSccBank3 off d => Sys2Proof.Machine.execMwSccBank3 off d s
  | .mwKonamiBank1 off d => Sys2Proof.Machine.execMwKonamiBank1 off d s
  | .mwKonamiBank2 off d => Sys2Proof.Machine.execMwKonamiBank2 off d s
  | .mwKonamiBank3 off d => Sys2Proof.Machine.execMwKonamiBank3 off d s
  | .mwAscii8Bank0 off d => Sys2Proof.Machine.execMwAscii8Bank0 off d s
  | .mwAscii8Bank1 off d => Sys2Proof.Machine.execMwAscii8Bank1 off d s
  | .mwAscii8Bank2 off d => Sys2Proof.Machine.execMwAscii8Bank2 off d s
  | .mwAscii8Bank3 off d => Sys2Proof.Machine.execMwAscii8Bank3 off d s
  | .mwAscii16Bank0 off d => Sys2Proof.Machine.execMwAscii16Bank0 off d s
  | .mwAscii16Bank1 off d => Sys2Proof.Machine.execMwAscii16Bank1 off d s
  | .mwSccSound off d => Sys2Proof.Machine.execMwSccSound off d s
  | .mwNeo8Switch a d => Sys2Proof.Machine.execMwNeo8Switch a d s
  | .mwNeo16Switch a d => Sys2Proof.Machine.execMwNeo16Switch a d s
  | .mwOther a d => Sys2Proof.Machine.execMwOther a d s
  | .memReadUnserved a => Sys2Proof.Machine.execMemReadUnserved a s
  | .iwCtrlInit => Sys2Proof.Machine.execIwCtrlInit s
  | .iwCtrlGetId => Sys2Proof.Machine.execIwCtrlGetId s
  | .iwCtrlGetCap => Sys2Proof.Machine.execIwCtrlGetCap s
  | .iwCtrlReadBlock => Sys2Proof.Machine.execIwCtrlReadBlock s
  | .iwCtrlReadNext => Sys2Proof.Machine.execIwCtrlReadNext s
  | .iwCtrlWriteBlock => Sys2Proof.Machine.execIwCtrlWriteBlock s
  | .iwCtrlWriteNext => Sys2Proof.Machine.execIwCtrlWriteNext s
  | .iwCtrlUnrecognised d => Sys2Proof.Machine.execIwCtrlUnrecognised d s
  | .irCtrlStatus => Sys2Proof.Machine.execIrCtrlStatus s
  | .iwData d => Sys2Proof.Machine.execIwData d s
  | .irDataSending => Sys2Proof.Machine.execIrDataSending s
  | .irDataOther => Sys2Proof.Machine.execIrDataOther s
  | .ioOtherPort isWrite port => Sys2Proof.Machine.execIoOtherPort isWrite port s

end Sys2Proof.Machine
end

