-- ==== Sys2Proof/Machine/Loop.lean ====
section
/-! DEFINITION. The transaction loop (43_transaction_loop.md R150 to R160), the order in which the
environment's events are taken (60_exceptions.md R234, R235), and where a table word is placed for the
next step to run it. -/

namespace Sys2Proof.Machine

/-- What the decoder reads of the machine. -/
def ctxOf (s : State) : Ctx where
  scheme := s.cfg.scheme
  bridgeEn := s.cfg.bridgeEn
  soundOn := soundOn s
  sending := s.br.state == .sending
  ioNeedsSlot := s.par.ioNeedsSlot
  ctrlPort := s.par.ctrlPort
  dataPort := s.par.dataPort
  neo8Switch := s.par.neo8Switch
  neo16Switch := s.par.neo16Switch

/-- R155: `ReadWait(s)`; only RD is examined. -/
def readWait (snap : Snapshot) (s : State) : State := if snap.rd then s else release s

/-- R156: `WriteWait(s)`; only WR is examined. -/
def writeWait (snap : Snapshot) (s : State) : State := if snap.wr then s else release s

/-- R150: the FSM's part of a BUS step: wait in a hold, or detect and run the sample's row. -/
def fsmStep (snap : Snapshot) (s : State) : Host.Outcome State Fault Refusal :=
  match s.fsm with
  | .readHold => .next (readWait snap s)
  | .writeHold => .next (writeWait snap s)
  | .idle => exec (decode (ctxOf s) snap) s

/-- R150: the completion absorbed first, in configuration 10 only. -/
def absorbFirst (s : State) : Host.Outcome State Fault Refusal :=
  if s.cfg.bridgeEn then absorb s else .next s

/-- R150: `BusStep(S, s)`; R159: nothing outside SERVE; R160: nothing while a synchronous operation runs. -/
def busStep (snap : Snapshot) (s : State) : Host.Outcome State Fault Refusal :=
  match s.phase with
  | .boot => .next s
  | .halt => .next s
  | .serve =>
    match absorbFirst s with
    | .next t => if syncBlocked t then .next t else fsmStep snap t
    | .fault f => .fault f
    | .refused r => .refused r

/-- R235: the rank of an event among simultaneous ones, the highest first. -/
def eventRank (e : Event) : Nat :=
  match e with
  | .reset => 0
  | .remove => 1
  | .mount _ => 1
  | .complete _ _ => 2
  | .bootStep => 3
  | .sample _ => 3

/-- R59, R235: the first event of highest rank among `e` and `es`, and the others in the order offered. -/
def pickEvent (e : Event) (es : List Event) : Event × List Event :=
  match es with
  | [] => (e, [])
  | f :: fs =>
    if eventRank (pickEvent f fs).1 < eventRank e then ((pickEvent f fs).1, e :: (pickEvent f fs).2)
    else (e, f :: fs)

/-- Log 4: what the core does when the environment offers nothing: BOOT runs on, else BUS polls an idle bus. -/
def ownEvent (s : State) : Event :=
  match s.phase with
  | .boot => .bootStep
  | .serve => .sample (pinsOf s.par 0)
  | .halt => .sample (pinsOf s.par 0)

/-- The offers left when `rest` of an instant's events remain. -/
def remainingInputs (rest : List Event) (later : List Instant) : List Instant :=
  match rest with
  | [] => later
  | e :: es => (e :: es) :: later

/-- The event of this step, and the state with that event taken from the offers. -/
def takeEvent (s : State) : Event × State :=
  match s.inputs with
  | [] => (ownEvent s, s)
  | [] :: later => (ownEvent s, setInputs later s)
  | (e :: es) :: later => ((pickEvent e es).1, setInputs (remainingInputs (pickEvent e es).2 later) s)

/-- R234: the effect of one event, each one atomic step. -/
def runEvent (e : Event) (s : State) : Host.Outcome State Fault Refusal :=
  match e with
  | .sample pins => busStep (sampleBus s.par pins) s
  | .bootStep => .next (bootEvent s)
  | .complete ok data => .next (completeEvent ok data s)
  | .mount c => .next (mountEvent c s)
  | .remove => .next (removeEvent s)
  | .reset => .next (resetEvent s)

/-- Log 5: the machine set up to decode as in the context `c`: polling, with no block operation outstanding
and no response half read. The tables of the fine schemes stay: no table word is read through them. -/
def serveIn (c : Ctx) (s : State) : State :=
  { s with
    phase := .serve
    fsm := .idle
    cfg := { s.cfg with scheme := c.scheme, bridgeEn := c.bridgeEn }
    bank := if soundOn s == c.soundOn then s.bank else s.bank.set 2 (if c.soundOn then 0x03F else 0x002)
    br := { s.br with state := .idle, status := statusReady }
    co := { s.co with inFlight := false, result := .none }
    par := { s.par with
      ioNeedsSlot := c.ioNeedsSlot
      ctrlPort := c.ctrlPort
      dataPort := c.dataPort } }

/-- Log 5: a table word placed as the next sample, the machine in the word's own context. -/
def placeWord (s : State) (nbits w : Nat) : State :=
  let v : SampleWord := BitVec.ofNat 28 (w % 2 ^ nbits)
  let t := serveIn (tableCtx (Snapshot.ofWord v)) s
  { t with inputs := [.sample (pinsOf t.par v)] :: s.inputs }

end Sys2Proof.Machine
end

