-- ==== Sys2Proof/Machine/Step.lean ====
section
/-! DEFINITION. One step of the machine: the next event taken and run (60_exceptions.md R234, R235), and
the placing of a table word for the step to run. -/

namespace Sys2Proof.Machine

/-- One step: the environment's next event, or the core's own. -/
def step (s : State) : Host.Outcome State Fault Refusal :=
  runEvent (takeEvent s).1 (takeEvent s).2

/-- `s` with a table word placed where the next step reads its sample (log 5). -/
def State.withFetchWord (s : State) (nbits w : Nat) : State := placeWord s nbits w

end Sys2Proof.Machine
end

