-- ==== Sys2Proof/Machine/Pseudocode.lean ====
section
/-! DEFINITION. The cycles as the spec's own pseudocode writes them, over the whole address and the whole
byte: MapRead and MapWrite (41_mapper.md R110 to R117), the command dispatch and the data port
(44_storage_bridge.md R170, R184, R196, R197), and Detect (43_transaction_loop.md R150 to R158). The step
does not use them: the rows of the opcode table, decoded and run, are claimed equal to them. -/

namespace Sys2Proof.Machine

/-- R112: `bank[i]`. -/
def bankAt (s : State) (i : Nat) : Nat := (s.bank[i]?.getD 0).toNat

/-- R111: `FlatRead(A)`. -/
def flatRead (s : State) (first last a : Nat) : ReadResult :=
  if a < first ∨ last < a then .none else bounded s (a - first)

/-- R112: `SegRead(A)`. -/
def segRead (s : State) (g : Geometry) (a : Nat) : ReadResult :=
  if a < g.wbase ∨ g.wbase + g.nb * g.wsize ≤ a then .none
  else bounded s (bankAt s ((a - g.wbase) / g.wsize) % 2 ^ g.w * g.wsize + (a &&& (g.wsize - 1)))

/-- R115: the sound region is mapped and holds the address. -/
def soundHit (s : State) (a : Addr) : Bool := s.cfg.scheme == .scc && soundOn s && inSoundRegion a

/-- R110, R115: `MapRead(A)`. -/
def mapRead (s : State) (a : Addr) : ReadResult :=
  if soundHit s a then .unspec
  else
    match flatWindow s.cfg.scheme, geometry s.cfg.scheme with
    | some w, _ => flatRead s w.1 w.2 a.toNat
    | none, some g => segRead s g a.toNat
    | none, none => .none

/-- R116, R117: `MapWrite(A, D)`: the register set and its new value, or `none` for `NOT_SWITCH`. -/
def mapWrite (s : State) (a : Addr) (d : Byte) : Option (Fin 6 × BankReg) :=
  if soundHit s a then none
  else
    match findEntry (switchTable s.par.neo8Switch s.par.neo16Switch s.cfg.scheme) a with
    | some e => some (e.reg, laneValue (bankWidth s.cfg.scheme) e.lane s.bank[e.reg] d)
    | none => none

/-- R152: `MemReadCycle(s)`. -/
def memReadCycle (a : Addr) (s : State) : Host.Outcome State Fault Refusal := serveRead (mapRead s a) s

/-- R154: `MemWriteCycle(s)`. -/
def memWriteCycle (a : Addr) (d : Byte) (s : State) : Host.Outcome State Fault Refusal :=
  match mapWrite s a d with
  | some (r, v) => .next (holdWrite (setBank r v s))
  | none => .next s

/-- R170: the body of a recognised command. -/
def commandBody (d : Byte) (oldValid : Bool) (oldDir : Dir) (s : State) : State :=
  if d = 0x01 then cmdInit s
  else if d = 0x03 then cmdGetId s
  else if d = 0x05 then cmdGetCap s
  else if d = 0x06 then cmdBlock .read s
  else if d = 0x07 then cmdReadNext oldValid oldDir s
  else if d = 0x08 then cmdBlock .write s
  else cmdWriteNext oldValid oldDir s

/-- R170: `Command(d)`. -/
def command (d : Byte) (s : State) : State :=
  if pending s.br then s
  else if !recognised d then s
  else commandBody d s.br.seqValid s.br.seqDir (setBridge (takeCommand d s.br) s)

/-- R158, R195 to R197: `IoReadCycle(s)`. -/
def ioReadCycle (p : Port) (s : State) : Host.Outcome State Fault Refusal :=
  if !s.cfg.bridgeEn then .next s
  else if p = s.par.ctrlPort then .next (drive s.br.status s)
  else if p = s.par.dataPort then
    (if s.br.state = .sending then sendingCycle s else .next (drive Config.sentinel s))
  else .next s

/-- R158: `IoWriteCycle(s)`. -/
def ioWriteCycle (p : Port) (d : Byte) (s : State) : Host.Outcome State Fault Refusal :=
  if !s.cfg.bridgeEn then .next s
  else if p = s.par.ctrlPort then .next (holdWrite (command d s))
  else if p = s.par.dataPort then dataWriteCycle d s
  else .next s

/-- R150: `Detect(s)`. -/
def detect (snap : Snapshot) (s : State) : Host.Outcome State Fault Refusal :=
  match classify s.par.ioNeedsSlot snap with
  | .noise => .next s
  | .noCycle => .next s
  | .unselected => .next s
  | .memRead => memReadCycle snap.a s
  | .memWrite => memWriteCycle snap.a snap.d s
  | .ioRead => ioReadCycle (portOf snap.a) s
  | .ioWrite => ioWriteCycle (portOf snap.a) snap.d s

end Sys2Proof.Machine
end

