-- ==== Sys2Proof/Safety.lean ====
section
/-! DEFINITION. What the claims are stated in: the premises on the parameters (00_scope.md R8, 30_encoding.md
R84), the machine's invariant (10_state.md R39 and what the boot checks establish), the payload byte a
window shows, and runs of one port access. -/

namespace Sys2Proof.Machine

/-- R84: the premises on a switch table of a fine scheme with `nb` registers. -/
abbrev SwitchTableOk (nb : Nat) (t : List SwitchEntry) : Prop :=
  (∀ e ∈ t, e.reg.val < nb ∧ e.lane ≠ .all) ∧
  t.Pairwise (fun e f => e.hi.toNat < f.lo.toNat ∨ f.hi.toNat < e.lo.toNat) ∧
  t.Pairwise (fun e f => ¬(e.reg = f.reg ∧ e.lane = f.lane))

/-- R8, R70, R84, R135: the premises on the parameters; `STORE` in canonical form within STORE_LEN. -/
structure ParamsOk (p : Params) : Prop where
  ports : p.ctrlPort ≠ p.dataPort
  idLength : 1 ≤ p.bridgeId.length ∧ p.bridgeId.length ≤ 512
  storeLen : p.storeLen ≤ 2 ^ 32
  storeForm : Memory.wf p.store = true
  storeBelow : Memory.below p.storeLen p.store = true
  neo8 : SwitchTableOk 6 p.neo8Switch
  neo16 : SwitchTableOk 3 p.neo16Switch

/-- R31, R39 item 3: the status byte that goes with each bridge state. -/
def statusFits (st : BrState) (status : Byte) : Bool :=
  match st with
  | .idle => status == statusReady || status == statusError
  | .awaitAddr => status == statusReady
  | .awaitPayload => status == statusReady
  | .readPending => status == statusBusy
  | .writePending => status == statusBusy
  | .sending => status == statusSending

/-- R24, R65, R254: the payload lies in the store, and the cache holds a copy of its staged part. -/
structure StoreReady (s : State) : Prop where
  payloadInStore : s.cfg.romBase.toNat + s.cfg.romSize.toNat ≤ s.par.storeLen
  cacheCopies : ∀ k < s.cfg.stagedLen.toNat, Memory.read s.cache k = Memory.read s.par.store (s.cfg.romBase.toNat + k)

/-- What holds in phase SERVE (R16, R21, R23, R24, R39 item 7, R254). -/
structure Served (s : State) : Prop where
  scheme : bootScheme s.par s.cfg.tag = some s.cfg.scheme
  bridge : s.cfg.bridgeEn = (s.cfg.tag == 10)
  staged : s.cfg.stagedLen = stagedLength s.par s.cfg.romSize
  store : StoreReady s
  bankWidths : ∀ i : Fin 6, i.val < numBanks s.cfg.scheme → s.bank[i].toNat < 2 ^ bankWidth s.cfg.scheme
  konamiBank0 : s.cfg.scheme = .konami → s.bank[0] = 0

/-- The machine's invariant: the seven items of R39, the form of the byte arrays, and what ties the
coordinator to the session and the device (R66, R160, R211). -/
structure CoreInv (s : State) : Prop where
  params : ParamsOk s.par
  cacheForm : Memory.wf s.cache = true
  cacheBelow : Memory.below s.par.cacheMax s.cache = true
  holdsInServe : s.fsm ≠ .idle → s.phase = .serve
  oneOutcome : s.co.inFlight = true → s.co.result = .none
  pendingIff : pending s.br = true ↔ (s.co.inFlight = true ∨ s.co.result ≠ .none)
  pendingOp : pending s.br = true → s.br.state = pendingState s.co.op ∧ s.br.lba = s.co.opLba
  status : statusFits s.br.state s.br.status = true
  sending : s.br.state = .sending → 1 ≤ s.br.remaining ∧ s.br.cursor + s.br.remaining ≤ 512
  payload : s.br.state = .awaitPayload → s.br.cursor < 512
  address : s.br.state = .awaitAddr → s.br.addrCount < 4
  quietCoord : ¬(s.phase = .serve ∧ s.cfg.bridgeEn = true) → s.co.inFlight = false ∧ s.co.result = .none
  inRange : s.co.inFlight = true → s.dev.ready = true ∧ s.co.opLba.toNat < s.dev.capacity.toNat
  syncHold : syncBlocked s = true → s.fsm = .writeHold
  served : s.phase = .serve → Served s

/-- The byte a window shows at offset `rel` of the payload: the store's byte inside the payload (R113,
R144), the sentinel past it (R113). -/
def payload (s : State) (rel : Nat) : Byte :=
  if rel < s.cfg.romSize.toNat then Memory.read s.par.store (s.cfg.romBase.toNat + rel) else Config.sentinel

/-- The next state of a served read that drives `b` (R101): the latch and the FSM change, nothing else. -/
abbrev driven (b : Byte) (s : State) : State := { s with dout := b, fsm := .readHold }

/-- The next state of a switch write of the value `v` to register `r` (R116, R154). -/
abbrev switched (r : Fin 6) (v : BankReg) (s : State) : State := { s with bank := s.bank.set r v, fsm := .writeHold }

/-- The next state of a served port write that leaves the session `br` and the coordinator `co` (R158). -/
abbrev held (br : Bridge) (co : Coord) (s : State) : State := { s with br := br, co := co, fsm := .writeHold }

/-- R211: a start of `lba` is accepted. -/
abbrev Accepts (s : State) (lba : U32) : Prop :=
  s.co.inFlight = false ∧ s.dev.ready = true ∧ lba.toNat < s.dev.capacity.toNat

/-- R182: the session after `Fail()`. -/
abbrev failed (br : Bridge) : Bridge :=
  { br with state := .idle, status := 0xFF, seqValid := false, addrCount := 0, cursor := 0, remaining := 0 }

/-- The context of the spec's test instance: a scheme, the bridge or not, ports 0x60 and 0x61 (95_test_vectors.md). -/
abbrev exampleCtx (sch : Scheme) (bridge : Bool) : Ctx where
  scheme := sch
  bridgeEn := bridge
  soundOn := false
  sending := false
  ioNeedsSlot := false
  ctrlPort := 0x60
  dataPort := 0x61
  neo8Switch := []
  neo16Switch := []

/-- One `IW DATA_PORT, d` of a bus script for each byte, the FSM back in IDLE after each (R85). -/
def dataWrites (ds : List Byte) (s : State) : Host.Outcome State Fault Refusal :=
  match ds with
  | [] => .next s
  | d :: t =>
    match exec (.iwData d) s with
    | .next u => dataWrites t (release u)
    | .fault f => .fault f
    | .refused r => .refused r

/-- `n` data-port reads in SENDING, each released: the bytes driven, in order, and the state after them (R85, R196). -/
def dataReads (n : Nat) (s : State) : Option (List Byte × State) :=
  match n with
  | 0 => some ([], s)
  | k + 1 =>
    match exec .irDataSending s with
    | .next u =>
      match dataReads k (release u) with
      | some r => some (u.dout :: r.1, r.2)
      | none => none
    | .fault _ => none
    | .refused _ => none

/-- `n` BUS steps on one unchanging sample (R157). -/
def samples (n : Nat) (snap : Snapshot) (s : State) : Host.Outcome State Fault Refusal :=
  match n with
  | 0 => .next s
  | k + 1 =>
    match busStep snap s with
    | .next t => samples k snap t
    | .fault f => .fault f
    | .refused r => .refused r

end Sys2Proof.Machine
end

