-- ==== Sys2Proof/Certificates/Slice0/Obligations.lean ====
section
/-! DEFINITION. The statements for the provers. -/

open Sys2Proof Sys2Proof.Machine

/-! ## Encodings -/

/-- R67, R69, R70, R86: words written out from the spec's encodings decode to the rows they stand for. -/
def Obligations.ExampleWordsDecode : Prop :=
  decode (exampleCtx .flat16 false) (Snapshot.ofWord 0x0C400000) = .mrFlat16 0 ∧
  decode (exampleCtx .konami false) (Snapshot.ofWord 0x0C600100) = .mrKonamiBank1 1 ∧
  decode (exampleCtx .ascii8 false) (Snapshot.ofWord 0x0A680005) = .mwAscii8Bank1 0 5 ∧
  decode (exampleCtx .none true) (Snapshot.ofWord 0x03006006) = .iwCtrlReadBlock ∧
  decode (exampleCtx .none true) (Snapshot.ofWord 0x05126000) = .irCtrlStatus ∧
  decode (exampleCtx .none true) (Snapshot.ofWord 0x05006200) = .ioOtherPort false 0x62 ∧
  decode (exampleCtx .flat16 false) (Snapshot.ofWord 0x0E400000) = .noise ∧
  decode (exampleCtx .flat16 false) (Snapshot.ofWord 0x04400000) = .unselectedRd

/-- R67, R69, R70: in every context whose two ports differ, decoding the encoding of a well-formed row gives
the row back, every operand with it. -/
def Obligations.DecodeEncodeAgree : Prop :=
  ∀ (c : Ctx) (i : Instr), c.ctrlPort ≠ c.dataPort → WellFormed c i = true →
    decode c (Snapshot.ofWord (encode c i)) = i

/-- R69: every sample word is one row, well-formed in the context it is decoded in. -/
def Obligations.DecodedRowIsWellFormed : Prop :=
  ∀ (c : Ctx) (w : SampleWord), WellFormed c (decode c (Snapshot.ofWord w)) = true

/-- R69: the class of a snapshot by its control signals, with I/O cycles gated by SLT or not. -/
def Obligations.CycleClassOfControlSignals : Prop :=
  ∀ (needsSlot : Bool) (s : Snapshot),
    (classify needsSlot s = .noise ↔ s.rd = true ∧ s.wr = true) ∧
    (classify needsSlot s = .noCycle ↔ s.rd = false ∧ s.wr = false) ∧
    (classify needsSlot s = .ioRead ↔ s.rd = true ∧ s.wr = false ∧ s.iorq = true ∧ (needsSlot = true → s.slt = true)) ∧
    (classify needsSlot s = .ioWrite ↔ s.rd = false ∧ s.wr = true ∧ s.iorq = true ∧ (needsSlot = true → s.slt = true)) ∧
    (classify needsSlot s = .memRead ↔ s.rd = true ∧ s.wr = false ∧ s.iorq = false ∧ s.slt = true) ∧
    (classify needsSlot s = .memWrite ↔ s.rd = false ∧ s.wr = true ∧ s.iorq = false ∧ s.slt = true) ∧
    (classify needsSlot s = .unselected ↔ s.rd ≠ s.wr ∧ s.slt = false ∧ (s.iorq = true → needsSlot = true))

/-- R72, R73: the seven command bytes, and every other byte unrecognised. -/
def Obligations.CommandByteMap : Prop :=
  ∀ d : Byte,
    (decodeCommand d = .iwCtrlInit ↔ d = 0x01) ∧ (decodeCommand d = .iwCtrlGetId ↔ d = 0x03) ∧
    (decodeCommand d = .iwCtrlGetCap ↔ d = 0x05) ∧ (decodeCommand d = .iwCtrlReadBlock ↔ d = 0x06) ∧
    (decodeCommand d = .iwCtrlReadNext ↔ d = 0x07) ∧ (decodeCommand d = .iwCtrlWriteBlock ↔ d = 0x08) ∧
    (decodeCommand d = .iwCtrlWriteNext ↔ d = 0x09) ∧
    (decodeCommand d = .iwCtrlUnrecognised d ↔ d = 0x00 ∨ d = 0x02 ∨ d = 0x04 ∨ 0x0A ≤ d.toNat)

/-! ## The step -/

/-- R100, R150, over the model's queue of offers (log 3): a sample offered alone is taken by a BUS step on its logical snapshot. In SERVE and IDLE,
with no completion to absorb and no synchronous operation running, that step runs the row the snapshot
decodes to, which is well-formed in its context. -/
def Obligations.StepRunsDecodedRow : Prop :=
  ∀ (s : State) (pins : SampleWord) (later : List Instant), s.inputs = [.sample pins] :: later →
    step s = busStep (sampleBus s.par pins) { s with inputs := later } ∧
    (s.phase = .serve → s.fsm = .idle → (s.cfg.bridgeEn = true → s.co.result = .none) → syncBlocked s = false →
      WellFormed (ctxOf s) (decode (ctxOf s) (sampleBus s.par pins)) = true ∧
      step s = exec (decode (ctxOf s) (sampleBus s.par pins)) { s with inputs := later })

/-- The model's choice (logs 5, 6): a table word placed for the next step is run by that step as the row
the table decoder reads from it, in a polling SERVE state with the other offers as before. -/
def Obligations.PlacedWordIsRun : Prop :=
  ∀ (s : State) (nbits w : Nat) (i : Instr), decodeTableWord nbits w = some i →
    ∃ t : State, t.phase = .serve ∧ t.fsm = .idle ∧ t.inputs = s.inputs ∧
      step (s.withFetchWord nbits w) = exec i t

/-- R150 to R158, R170, R184, R196, R197: the decoded row has exactly the effect of the spec's pseudocode for
the cycle, `Detect` with MapRead, MapWrite, the command dispatch and the data port. -/
def Obligations.DecodedRowsRefinePseudocode : Prop :=
  ∀ (s : State) (snap : Snapshot), exec (decode (ctxOf s) snap) s = detect snap s

/-- R214: what the absorption does in each case, and that every BUS step of configuration 10 begins with it. -/
def Obligations.CompletionAbsorbedFirst : Prop :=
  (∀ s : State, s.co.inFlight = true ∨ s.co.result = .none → absorb s = .next s) ∧
  (∀ s : State, s.co.inFlight = false → s.co.result = .ready → s.br.state = .readPending →
    absorb s = .next { s with
      co := { s.co with result := .none }
      br := { s.br with state := .sending, cursor := 0, remaining := 512, status := 0x02, seqValid := true, seqDir := .read } }) ∧
  (∀ s : State, s.co.inFlight = false → s.co.result = .ready → s.br.state = .writePending →
    absorb s = .next { s with
      co := { s.co with result := .none }
      br := { s.br with state := .idle, status := 0x00, seqValid := true, seqDir := .write } }) ∧
  (∀ s : State, s.co.inFlight = false → s.co.result = .failed →
    absorb s = .next { s with co := { s.co with result := .none }, br := failed s.br }) ∧
  (∀ (s t : State) (snap : Snapshot), s.phase = .serve → s.cfg.bridgeEn = true → absorb s = .next t →
    busStep snap s = if syncBlocked t then .next t else fsmStep snap t)

/-- R155, R156: a hold stays while its own strobe is active and ends, back in IDLE with the bus released,
when it is not; no other signal is examined. -/
def Obligations.HoldsWaitForTheirStrobe : Prop :=
  ∀ (s t : State) (snap : Snapshot), s.phase = .serve → absorbFirst s = .next t → syncBlocked t = false →
    (t.fsm = .readHold → busStep snap s = .next (if snap.rd then t else { t with fsm := .idle })) ∧
    (t.fsm = .writeHold → busStep snap s = .next (if snap.wr then t else { t with fsm := .idle })) ∧
    dOE { t with fsm := .idle } = false

/-- R159: outside SERVE a sample changes nothing, the bus is not driven and, under the invariant, the FSM is IDLE. -/
def Obligations.NothingServedOutsideServe : Prop :=
  ∀ (s : State) (snap : Snapshot), s.phase ≠ .serve →
    busStep snap s = .next s ∧ dOE s = false ∧ (CoreInv s → s.fsm = .idle)

/-- R160: with a synchronous coordinator a BUS step does nothing while an operation is in flight, and the
bus is not driven then. -/
def Obligations.SyncOperationBlocksBus : Prop :=
  ∀ (s : State) (snap : Snapshot), CoreInv s → s.par.coordMode = .sync → s.co.inFlight = true →
    busStep snap s = .next s ∧ dOE s = false

/-- R157: a served cycle whose strobe stays active is served once: further samples of it change nothing. -/
def Obligations.HeldStrobeServedOnce : Prop :=
  ∀ (s t : State) (snap : Snapshot), busStep snap s = .next t →
    ((t.fsm = .readHold ∧ snap.rd = true) ∨ (t.fsm = .writeHold ∧ snap.wr = true)) →
    ∀ n : Nat, samples n snap t = .next t

/-- R103, R104: after a BUS step the core drives the bus only if RD was active in the step's sample. -/
def Obligations.BusDrivenOnlyUnderRead : Prop :=
  ∀ (s t : State) (snap : Snapshot), CoreInv s → busStep snap s = .next t → dOE t = true → snap.rd = true

/-- R59, R235, over the model's queue of offers (log 3): the priority is Reset, then Remove or Mount, then Complete,
then BootStep or Sample. Of the events offered at one instant the step takes the first of highest priority. That
the others stay offered, in their order, for the steps after it is the model's choice (log 3). -/
def Obligations.EventsTakenByRank : Prop :=
  (∀ (c : U32) (ok : Bool) (data : Buffer) (pins : SampleWord),
    eventRank .reset < eventRank .remove ∧ eventRank .remove = eventRank (.mount c) ∧
    eventRank (.mount c) < eventRank (.complete ok data) ∧ eventRank (.complete ok data) < eventRank .bootStep ∧
    eventRank .bootStep = eventRank (.sample pins)) ∧
  (∀ (s : State) (e : Event) (es : List Event) (later : List Instant), s.inputs = (e :: es) :: later →
    ∃ (f : Event) (before after : List Event), e :: es = before ++ f :: after ∧
      (∀ g ∈ before, eventRank f < eventRank g) ∧ (∀ g ∈ after, eventRank f ≤ eventRank g) ∧
      step s = runEvent f { s with inputs := if before ++ after = [] then later else (before ++ after) :: later })

/-! ## Reset, boot and the outputs -/

/-- R20: the outputs as functions of the state. -/
def Obligations.OutputsFollowState : Prop :=
  ∀ s : State, (dOE s = true ↔ s.phase = .serve ∧ s.fsm = .readHold) ∧
    (dOE s = true → dOut s = some s.dout) ∧ (dOE s = false → dOut s = none) ∧
    (waitAct s = true ↔ s.phase = .boot)

/-- R40, R250: a reset in any state gives every element the spec gives a reset value that value, and leaves
STORE, the other parameters and the device alone. -/
def Obligations.ResetSetsEveryElement : Prop :=
  ∀ s : State, ∃ t : State, runEvent .reset s = .next t ∧
    t.phase = .boot ∧ t.fsm = .idle ∧ dOE t = false ∧ waitAct t = true ∧
    t.br.state = .idle ∧ t.br.dir = .read ∧ t.br.addrCount = 0 ∧ t.br.lba = 0 ∧ t.br.cursor = 0 ∧
    t.br.remaining = 0 ∧ t.br.status = 0x00 ∧ t.br.lastCmd = 0x00 ∧ t.br.seqValid = false ∧ t.br.seqDir = .read ∧
    t.co.inFlight = false ∧ t.co.result = .none ∧ t.co.op = .read ∧ t.co.opLba = 0 ∧
    t.par = s.par ∧ t.dev = s.dev

/-- R253: reading a header record: missing past the store, the terminator, or its three fields. -/
def Obligations.HeaderRecordFields : Prop :=
  ∀ (p : Params) (i a : Nat), a = p.headerBase + i * (p.nameLen + 9) →
    (p.storeLen < a + (p.nameLen + 9) → readRecord p i = .missing) ∧
    (a + (p.nameLen + 9) ≤ p.storeLen → (∀ k < p.nameLen + 9, Memory.read p.store (a + k) = 0xFF) →
      readRecord p i = .terminator) ∧
    (a + (p.nameLen + 9) ≤ p.storeLen → (∃ k < p.nameLen + 9, Memory.read p.store (a + k) ≠ 0xFF) →
      readRecord p i = .valid (Memory.read p.store (a + p.nameLen))
        (le32 (Memory.read p.store (a + p.nameLen + 1)) (Memory.read p.store (a + p.nameLen + 2))
          (Memory.read p.store (a + p.nameLen + 3)) (Memory.read p.store (a + p.nameLen + 4)))
        (le32 (Memory.read p.store (a + p.nameLen + 5)) (Memory.read p.store (a + p.nameLen + 6))
          (Memory.read p.store (a + p.nameLen + 7)) (Memory.read p.store (a + p.nameLen + 8))))

/-- R76, R252, R254, R256, R257: with the records up to the active one present and the active one valid, the boot
step latches the configuration with the scheme R76 gives the tag, stages the cache, sets the ascending mapping and
enters SERVE. That one boot step does the whole sequence is the model's choice (log 13). -/
def Obligations.BootServesValidRecord : Prop :=
  ∀ (s : State) (tag : Byte) (size offset : U32) (sch : Scheme), s.phase = .boot →
    (∀ j ≤ s.par.activeIndex, ∃ t z o, readRecord s.par j = .valid t z o) →
    readRecord s.par s.par.activeIndex = .valid tag size offset →
    (tag, sch) ∈ [((1 : Byte), Scheme.flat16), (2, .flat32), (3, .scc), (4, .linear0), (5, .ascii8), (6, .ascii16),
      (7, .konami), (8, .neo8), (9, .neo16), (10, s.par.bridgeRomScheme)] →
    offset.toNat + size.toNat ≤ s.par.storeLen →
    ∃ t : State, runEvent .bootStep s = .next t ∧
      t.cfg = ⟨tag, sch, tag == 10, offset, size,
        if s.par.useCache then BitVec.ofNat 32 (min size.toNat s.par.cacheMax) else 0⟩ ∧
      t.phase = .serve ∧ t.fsm = .idle ∧ waitAct t = false ∧
      (∀ i : Fin 6, i.val < numBanks sch → t.bank[i].toNat = i.val) ∧
      (∀ k < t.cfg.stagedLen.toNat, Memory.read t.cache k = Memory.read s.par.store (offset.toNat + k)) ∧
      t.par = s.par ∧ t.dev = s.dev ∧ t.inputs = s.inputs ∧ t.draws = s.draws ∧ t.dout = s.dout ∧ t.br = s.br ∧ t.co = s.co

/-- R254, R255: each of the three fatal configuration errors leads to HALT, where the outputs are inactive
and no BOOT step does anything. That one boot step reaches HALT (log 13), and that a boot step offered in HALT is
taken and changes nothing, where R255 says that none is enabled (log 3), are the model's choices. -/
def Obligations.BootHaltsOnFatalError : Prop :=
  ∀ s : State, s.phase = .boot →
    ((∃ j ≤ s.par.activeIndex, readRecord s.par j = .missing ∨ readRecord s.par j = .terminator) ∨
     (∃ tag size offset, readRecord s.par s.par.activeIndex = .valid tag size offset ∧
       ((tag.toNat < 1 ∨ 10 < tag.toNat) ∨ s.par.storeLen < offset.toNat + size.toNat))) →
    runEvent .bootStep s = .next { s with phase := .halt } ∧
    dOE { s with phase := .halt } = false ∧ waitAct { s with phase := .halt } = false ∧
    runEvent .bootStep { s with phase := .halt } = .next { s with phase := .halt }

/-! ## The machine's invariant -/

/-- R39 and the model's own parameters at reset (logs 2, 7, 8): the invariant holds after reset. -/
def Obligations.InvHoldsAtReset : Prop := CoreInv State.reset

/-- R39: from every state that meets the invariant, a step that answers a next state keeps it. -/
def Obligations.StepKeepsInv : Prop := ∀ s t : State, CoreInv s → step s = .next t → CoreInv t

/-- R137, R162: from every state that meets the invariant, a step answers a next state: nothing faults and
nothing is refused. -/
def Obligations.StepNeverStops : Prop := ∀ s : State, CoreInv s → ∃ t : State, step s = .next t

/-! ## Memory -/

/-- R144: inside the payload the resolver gives the store's byte, from the cache or not. -/
def Obligations.ResolveReadsStore : Prop :=
  ∀ s : State, StoreReady s → ∀ off : Nat,
    s.cfg.romBase.toNat ≤ off → off < s.cfg.romBase.toNat + s.cfg.romSize.toNat →
    resolve s off = some (Memory.read s.par.store off)

/-- R58, R64, R145: no row of the table changes a byte of the store or of the cache, nor the configuration,
the parameters, the device or the phase. -/
def Obligations.NoCycleWritesMemory : Prop :=
  ∀ (i : Instr) (s t : State), exec i s = .next t →
    (∀ k : Nat, Memory.read t.par.store k = Memory.read s.par.store k) ∧
    (∀ k : Nat, Memory.read t.cache k = Memory.read s.cache k) ∧
    t.cache = s.cache ∧ t.par = s.par ∧ t.cfg = s.cfg ∧ t.dev = s.dev ∧ t.phase = s.phase ∧ t.inputs = s.inputs

/-- R58, R145: no step changes STORE, and a step from SERVE or HALT leaves the cache as it was unless it
takes a reset. -/
def Obligations.StepsLeaveStoreAndCache : Prop :=
  ∀ s t : State, step s = .next t →
    t.par = s.par ∧ (s.phase ≠ .boot → (takeEvent s).1 ≠ .reset → t.cache = s.cache ∧ t.cfg = s.cfg ∧ t.phase = s.phase)

/-! ## The mapper -/

/-- R151, R114, R116, R117, R158: the rows the core does not serve change nothing. -/
def Obligations.UnservedRowsChangeNothing : Prop :=
  ∀ (s : State) (a : Addr) (d : Byte) (off : BitVec 11) (isWrite : Bool) (p : Port),
    exec .noise s = .next s ∧ exec .noCycle s = .next s ∧ exec .unselectedRd s = .next s ∧
    exec .unselectedWr s = .next s ∧ exec (.memReadUnserved a) s = .next s ∧ exec (.mwOther a d) s = .next s ∧
    exec (.mwSccSound off d) s = .next s ∧ exec (.ioOtherPort isWrite p) s = .next s

/-- R111, R113, R118 to R120: each flat row drives the payload byte at the address less the window's start,
or the sentinel past the payload; only the latch and the FSM change. -/
def Obligations.FlatReadsDrivePayload : Prop :=
  ∀ (s : State) (off : BitVec 14), StoreReady s →
    exec (.mrFlat16 off) s = .next (driven (payload s off.toNat) s) ∧
    exec (.mrFlat32Lo off) s = .next (driven (payload s off.toNat) s) ∧
    exec (.mrFlat32Hi off) s = .next (driven (payload s (0x4000 + off.toNat)) s) ∧
    exec (.mrLinear0Part0 off) s = .next (driven (payload s off.toNat) s) ∧
    exec (.mrLinear0Part1 off) s = .next (driven (payload s (0x4000 + off.toNat)) s) ∧
    exec (.mrLinear0Part2 off) s = .next (driven (payload s (0x8000 + off.toNat)) s)

/-- R112, R113, R122, R124, R126: each row of the 8-bit 8K schemes drives the payload byte its bank register
maps, or the sentinel; only the latch and the FSM change. -/
def Obligations.Segmented8KReadsDrivePayload : Prop :=
  ∀ (s : State) (off : BitVec 13), StoreReady s → (∀ i : Fin 6, s.bank[i].toNat < 256) →
    exec (.mrSccBank0 off) s = .next (driven (payload s (s.bank[0].toNat * 0x2000 + off.toNat)) s) ∧
    exec (.mrSccBank1 off) s = .next (driven (payload s (s.bank[1].toNat * 0x2000 + off.toNat)) s) ∧
    exec (.mrSccBank2 off) s = .next (driven (payload s (s.bank[2].toNat * 0x2000 + off.toNat)) s) ∧
    exec (.mrSccBank3 off) s = .next (driven (payload s (s.bank[3].toNat * 0x2000 + off.toNat)) s) ∧
    exec (.mrKonamiBank0 off) s = .next (driven (payload s (s.bank[0].toNat * 0x2000 + off.toNat)) s) ∧
    exec (.mrKonamiBank1 off) s = .next (driven (payload s (s.bank[1].toNat * 0x2000 + off.toNat)) s) ∧
    exec (.mrKonamiBank2 off) s = .next (driven (payload s (s.bank[2].toNat * 0x2000 + off.toNat)) s) ∧
    exec (.mrKonamiBank3 off) s = .next (driven (payload s (s.bank[3].toNat * 0x2000 + off.toNat)) s) ∧
    exec (.mrAscii8Bank0 off) s = .next (driven (payload s (s.bank[0].toNat * 0x2000 + off.toNat)) s) ∧
    exec (.mrAscii8Bank1 off) s = .next (driven (payload s (s.bank[1].toNat * 0x2000 + off.toNat)) s) ∧
    exec (.mrAscii8Bank2 off) s = .next (driven (payload s (s.bank[2].toNat * 0x2000 + off.toNat)) s) ∧
    exec (.mrAscii8Bank3 off) s = .next (driven (payload s (s.bank[3].toNat * 0x2000 + off.toNat)) s)

/-- R112, R113, R128, R130, R132: each row of the 16K and of the fine schemes drives the payload byte its bank
register maps; an ASCII16 register is taken as 8 bits, a NEO8 or NEO16 register as 12. -/
def Obligations.WideSegmentedReadsDrivePayload : Prop :=
  ∀ (s : State) (off : BitVec 14) (o : BitVec 13), StoreReady s →
    (s.bank[0].toNat < 256 → exec (.mrAscii16Bank0 off) s = .next (driven (payload s (s.bank[0].toNat * 0x4000 + off.toNat)) s)) ∧
    (s.bank[1].toNat < 256 → exec (.mrAscii16Bank1 off) s = .next (driven (payload s (s.bank[1].toNat * 0x4000 + off.toNat)) s)) ∧
    exec (.mrNeo16Bank0 off) s = .next (driven (payload s (s.bank[0].toNat * 0x4000 + off.toNat)) s) ∧
    exec (.mrNeo16Bank1 off) s = .next (driven (payload s (s.bank[1].toNat * 0x4000 + off.toNat)) s) ∧
    exec (.mrNeo16Bank2 off) s = .next (driven (payload s (s.bank[2].toNat * 0x4000 + off.toNat)) s) ∧
    exec (.mrNeo8Bank0 o) s = .next (driven (payload s (s.bank[0].toNat * 0x2000 + o.toNat)) s) ∧
    exec (.mrNeo8Bank1 o) s = .next (driven (payload s (s.bank[1].toNat * 0x2000 + o.toNat)) s) ∧
    exec (.mrNeo8Bank2 o) s = .next (driven (payload s (s.bank[2].toNat * 0x2000 + o.toNat)) s) ∧
    exec (.mrNeo8Bank3 o) s = .next (driven (payload s (s.bank[3].toNat * 0x2000 + o.toNat)) s) ∧
    exec (.mrNeo8Bank4 o) s = .next (driven (payload s (s.bank[4].toNat * 0x2000 + o.toNat)) s) ∧
    exec (.mrNeo8Bank5 o) s = .next (driven (payload s (s.bank[5].toNat * 0x2000 + o.toNat)) s)

/-- R51, R114: a memory read is answered exactly in the scheme's windows, the SCC sound region apart; outside
them nothing changes. -/
def Obligations.ReadsServedExactlyInWindows : Prop :=
  ∀ (s : State) (snap : Snapshot), StoreReady s → classify s.par.ioNeedsSlot snap = .memRead →
    soundHit s snap.a = false →
    (inWindows s.cfg.scheme snap.a = true → ∃ b, exec (decode (ctxOf s) snap) s = .next (driven b s)) ∧
    (inWindows s.cfg.scheme snap.a = false → exec (decode (ctxOf s) snap) s = .next s)

/-- R115: the three conditions of the sound region; a read there answers a next state that is the same one
but for the model's count of draws, or one that drives some byte; a write there changes nothing. Which of the
two, and which byte, is a free value of the model (log 10). -/
def Obligations.SoundRegionIsADraw : Prop :=
  (∀ (s : State) (a : Addr) (d : Byte), s.cfg.scheme = .scc → s.bank[2] &&& 0x3F = 0x3F →
    0x9800 ≤ a.toNat → a.toNat ≤ 0x9FFF →
    decode (ctxOf s) (readAt a.toNat) = .mrSccSound (a.setWidth 11) ∧
    decode (ctxOf s) (writeAt a.toNat d) = .mwSccSound (a.setWidth 11) d) ∧
  (∀ (s : State) (off : BitVec 11), ∃ t : State, exec (.mrSccSound off) s = .next t ∧
    (t = { s with draws := s.draws + 1 } ∨ ∃ b, t = driven b { s with draws := s.draws + 1 })) ∧
  (∀ (s : State) (off : BitVec 11) (d : Byte), exec (.mwSccSound off d) s = .next s)

/-- R116, R123, R125, R127, R129: each fixed switch row writes the whole byte into its one register and holds
for WR. -/
def Obligations.SwitchRowsCommitOneRegister : Prop :=
  ∀ (s : State) (o : BitVec 11) (p : BitVec 13) (d : Byte),
    exec (.mwSccBank0 o d) s = .next (switched 0 (d.setWidth 12) s) ∧
    exec (.mwSccBank1 o d) s = .next (switched 1 (d.setWidth 12) s) ∧
    exec (.mwSccBank2 o d) s = .next (switched 2 (d.setWidth 12) s) ∧
    exec (.mwSccBank3 o d) s = .next (switched 3 (d.setWidth 12) s) ∧
    exec (.mwKonamiBank1 p d) s = .next (switched 1 (d.setWidth 12) s) ∧
    exec (.mwKonamiBank2 p d) s = .next (switched 2 (d.setWidth 12) s) ∧
    exec (.mwKonamiBank3 p d) s = .next (switched 3 (d.setWidth 12) s) ∧
    exec (.mwAscii8Bank0 o d) s = .next (switched 0 (d.setWidth 12) s) ∧
    exec (.mwAscii8Bank1 o d) s = .next (switched 1 (d.setWidth 12) s) ∧
    exec (.mwAscii8Bank2 o d) s = .next (switched 2 (d.setWidth 12) s) ∧
    exec (.mwAscii8Bank3 o d) s = .next (switched 3 (d.setWidth 12) s) ∧
    exec (.mwAscii16Bank0 o d) s = .next (switched 0 (d.setWidth 12) s) ∧
    exec (.mwAscii16Bank1 o d) s = .next (switched 1 (d.setWidth 12) s)

/-- R83: the switch ranges of the four fixed-geometry schemes: a memory write in a range commits its
register, a memory write in none changes nothing. -/
def Obligations.SwitchRangesSelectRegisters : Prop :=
  ∀ (s : State) (a : Addr) (d : Byte) (r : Fin 6),
    let i := decode (ctxOf s) (writeAt a.toNat d)
    let hits := fun (lo hi : Nat) (q : Fin 6) => lo ≤ a.toNat ∧ a.toNat ≤ hi ∧ r = q
    let scc := hits 0x5000 0x57FF 0 ∨ hits 0x7000 0x77FF 1 ∨ hits 0x9000 0x97FF 2 ∨ hits 0xB000 0xB7FF 3
    let konami := hits 0x6000 0x7FFF 1 ∨ hits 0x8000 0x9FFF 2 ∨ hits 0xA000 0xBFFF 3
    let ascii8 := hits 0x6000 0x67FF 0 ∨ hits 0x6800 0x6FFF 1 ∨ hits 0x7000 0x77FF 2 ∨ hits 0x7800 0x7FFF 3
    let ascii16 := hits 0x6000 0x67FF 0 ∨ hits 0x7000 0x77FF 1
    let table := (s.cfg.scheme = .scc ∧ scc) ∨ (s.cfg.scheme = .konami ∧ konami) ∨
      (s.cfg.scheme = .ascii8 ∧ ascii8) ∨ (s.cfg.scheme = .ascii16 ∧ ascii16)
    (table → exec i s = .next (switched r (d.setWidth 12) s)) ∧
    ((∀ e ∈ switchTable s.par.neo8Switch s.par.neo16Switch s.cfg.scheme, ¬(e.lo.toNat ≤ a.toNat ∧ a.toNat ≤ e.hi.toNat)) →
      exec i s = .next s)

/-- R82, R84, R116, R131, R133: a write at an entry of a fine scheme's table writes one lane of one 12-bit
register: LO its bits 7:0, HI its bits 11:8 from D[3:0], the other bits kept. -/
def Obligations.FineSwitchWritesOneLane : Prop :=
  ∀ (s : State) (a : Addr) (d : Byte) (e : SwitchEntry), e.lo.toNat ≤ a.toNat → a.toNat ≤ e.hi.toNat →
    let v : BankReg := if e.lane = .lo then (s.bank[e.reg] &&& 0xF00) ||| d.setWidth 12
      else (s.bank[e.reg] &&& 0x0FF) ||| ((d &&& 0x0F).setWidth 12 <<< 8)
    (SwitchTableOk 6 s.par.neo8Switch → e ∈ s.par.neo8Switch → exec (.mwNeo8Switch a d) s = .next (switched e.reg v s)) ∧
    (SwitchTableOk 3 s.par.neo16Switch → e ∈ s.par.neo16Switch → exec (.mwNeo16Switch a d) s = .next (switched e.reg v s))

/-- R23, R116: a sample whose row changes a bank register is a memory write in a switch range of the scheme,
and only the register of that range changes. -/
def Obligations.OnlySwitchWritesChangeBanks : Prop :=
  ∀ (s t : State) (snap : Snapshot), exec (decode (ctxOf s) snap) s = .next t → t.bank ≠ s.bank →
    classify s.par.ioNeedsSlot snap = .memWrite ∧
    ∃ e ∈ switchTable s.par.neo8Switch s.par.neo16Switch s.cfg.scheme,
      e.lo.toNat ≤ snap.a.toNat ∧ snap.a.toNat ≤ e.hi.toNat ∧ ∀ r : Fin 6, r ≠ e.reg → t.bank[r] = s.bank[r]

/-- R134, R136: after a switch write of V through an entry of lane ALL, a read in the register's window gives
the payload byte at V*WSIZE + (A & WMASK), or the sentinel past the payload; the SCC sound region apart. -/
def Obligations.SwitchThenReadSeesBank : Prop :=
  ∀ (s : State) (g : Geometry) (e : SwitchEntry) (aw ar : Addr) (v : Byte), StoreReady s →
    geometry s.cfg.scheme = some g → g.w = 8 →
    e ∈ switchTable s.par.neo8Switch s.par.neo16Switch s.cfg.scheme →
    e.lo.toNat ≤ aw.toNat → aw.toNat ≤ e.hi.toNat →
    g.wbase + e.reg.val * g.wsize ≤ ar.toNat → ar.toNat < g.wbase + (e.reg.val + 1) * g.wsize →
    ¬(s.cfg.scheme = .scc ∧ v &&& 0x3F = 0x3F ∧ inSoundRegion ar = true) →
    ∃ t u : State, exec (decode (ctxOf s) (writeAt aw.toNat v)) s = .next t ∧
      exec (decode (ctxOf (release t)) (readAt ar.toNat)) (release t) = .next u ∧
      u.fsm = .readHold ∧ u.dout = payload s (v.toNat * g.wsize + ar.toNat % g.wsize)

/-! ## The bridge -/

/-- R174: INIT resets the session; the status says whether a device is ready. -/
def Obligations.InitResetsSession : Prop :=
  ∀ s : State, pending s.br = false →
    exec .iwCtrlInit s = .next (held { s.br with
      seqValid := false, lastCmd := 0x01, state := .idle, addrCount := 0, cursor := 0, remaining := 0
      status := if s.dev.ready then 0x00 else 0xFF } s.co s)

/-- R176: GET_ID loads BRIDGE_ID for sending, with or without a device; the other bytes of the buffer stay.
The address count it leaves 0 is the model's reading of R173 (log 11). -/
def Obligations.GetIdSendsIdentity : Prop :=
  ∀ s : State, pending s.br = false → 1 ≤ s.par.bridgeId.length → s.par.bridgeId.length ≤ 512 →
    ∃ buf : Buffer, buf.bytes = s.par.bridgeId ++ s.br.buf.bytes.drop s.par.bridgeId.length ∧
      exec .iwCtrlGetId s = .next (held { s.br with
        seqValid := false, lastCmd := 0x03, addrCount := 0, state := .sending, status := 0x02
        buf := buf, cursor := 0, remaining := s.par.bridgeId.length } s.co s)

/-- R177: GET_CAP loads the capacity, little-endian, or fails when no device is ready. The address count it
leaves 0 is the model's reading of R173 (log 11). -/
def Obligations.GetCapSendsCapacity : Prop :=
  ∀ s : State, pending s.br = false →
    (s.dev.ready = true → ∃ buf : Buffer,
      buf.bytes = [s.dev.capacity.extractLsb' 0 8, s.dev.capacity.extractLsb' 8 8, s.dev.capacity.extractLsb' 16 8,
        s.dev.capacity.extractLsb' 24 8] ++ s.br.buf.bytes.drop 4 ∧
      exec .iwCtrlGetCap s = .next (held { s.br with
        seqValid := false, lastCmd := 0x05, addrCount := 0, state := .sending, status := 0x02, cursor := 0, remaining := 4
        buf := buf } s.co s)) ∧
    (s.dev.ready = false →
      exec .iwCtrlGetCap s = .next (held { failed s.br with lastCmd := 0x05 } s.co s))

/-- R178, R180: READ_BLOCK and WRITE_BLOCK open the address phase in their direction. The cursor and remaining
count they leave 0 are the model's reading of R173 (log 11). -/
def Obligations.BlockCommandsOpenAddressPhase : Prop :=
  ∀ s : State, pending s.br = false →
    exec .iwCtrlReadBlock s = .next (held { s.br with
      seqValid := false, lastCmd := 0x06, cursor := 0, remaining := 0
      state := .awaitAddr, dir := .read, addrCount := 0, lba := 0, status := 0x00 } s.co s) ∧
    exec .iwCtrlWriteBlock s = .next (held { s.br with
      seqValid := false, lastCmd := 0x08, cursor := 0, remaining := 0
      state := .awaitAddr, dir := .write, addrCount := 0, lba := 0, status := 0x00 } s.co s)

/-- R179, R182: READ_NEXT with a valid read cursor starts a read of the next LBA modulo 2^32, or fails when
the start is rejected or the cursor is not a valid read cursor. The counts an accepted start leaves 0 are the
model's reading of R173 (log 11). -/
def Obligations.ReadNextStartsNextBlock : Prop :=
  ∀ s : State, pending s.br = false →
    (s.br.seqValid = true → s.br.seqDir = .read → Accepts s (s.br.lba + 1) →
      exec .iwCtrlReadNext s = .next (held { s.br with
        seqValid := false, lastCmd := 0x07, addrCount := 0, cursor := 0, remaining := 0
        lba := s.br.lba + 1, state := .readPending, status := 0x01 } ⟨true, .none, .read, s.br.lba + 1⟩ s)) ∧
    (¬(s.br.seqValid = true ∧ s.br.seqDir = .read ∧ Accepts s (s.br.lba + 1)) →
      exec .iwCtrlReadNext s = .next (held { failed s.br with lastCmd := 0x07 } s.co s))

/-- R181: WRITE_NEXT with a valid write cursor collects the payload of the next LBA, or fails. The address and
remaining counts it leaves 0 are the model's reading of R173 (log 11). -/
def Obligations.WriteNextCollectsNextBlock : Prop :=
  ∀ s : State, pending s.br = false →
    (s.br.seqValid = true → s.br.seqDir = .write →
      exec .iwCtrlWriteNext s = .next (held { s.br with
        seqValid := false, lastCmd := 0x09, addrCount := 0, cursor := 0, remaining := 0
        lba := s.br.lba + 1, state := .awaitPayload, status := 0x00 } s.co s)) ∧
    (¬(s.br.seqValid = true ∧ s.br.seqDir = .write) →
      exec .iwCtrlWriteNext s = .next (held { failed s.br with lastCmd := 0x09 } s.co s))

/-- R171, R183: a command byte written while an operation is pending, and an unrecognised one (0x00, 0x02, 0x04,
0x0A to 0xFF) in any state, change nothing but the hold for WR. -/
def Obligations.IgnoredCommandsOnlyHold : Prop :=
  (∀ (s : State) (d : Byte), pending s.br = true → exec (decodeCommand d) s = .next { s with fsm := .writeHold }) ∧
  (∀ (s : State) (d : Byte), exec (.iwCtrlUnrecognised d) s = .next { s with fsm := .writeHold }) ∧
  (∀ (s : State) (d : Byte), d = 0x00 ∨ d = 0x02 ∨ d = 0x04 ∨ 0x0A ≤ d.toNat →
    exec (decodeCommand d) s = .next { s with fsm := .writeHold })

/-- R195: a status read drives the status and changes nothing of the session. -/
def Obligations.StatusReadDrivesStatus : Prop :=
  ∀ s : State, exec .irCtrlStatus s = .next (driven s.br.status s)

/-- R196: a data-port read in SENDING drives the next byte and consumes it; the last one ends the transfer. -/
def Obligations.DataReadConsumesOneByte : Prop :=
  ∀ (s : State) (b : Byte), s.br.buf.bytes[s.br.cursor]? = some b → 1 ≤ s.br.remaining →
    exec .irDataSending s = .next (driven b { s with
      br := { s.br with
        cursor := s.br.cursor + 1
        remaining := s.br.remaining - 1
        state := if s.br.remaining = 1 then .idle else s.br.state
        status := if s.br.remaining = 1 then 0x00 else s.br.status } })

/-- R185, R186: a data-port write in AWAIT_ADDR takes LBA byte k at bits 8k; the fourth starts the read, or
opens the payload phase of a write. -/
def Obligations.AddressBytesAssembleLba : Prop :=
  ∀ (s : State) (d : Byte) (lba : U32), s.br.state = .awaitAddr →
    lba = s.br.lba ||| (d.setWidth 32 <<< (8 * s.br.addrCount)) →
    (s.br.addrCount < 3 →
      exec (.iwData d) s = .next (held { s.br with lba := lba, addrCount := s.br.addrCount + 1 } s.co s)) ∧
    (s.br.addrCount = 3 → s.br.dir = .read → Accepts s lba →
      exec (.iwData d) s = .next (held { s.br with lba := lba, addrCount := 4, state := .readPending, status := 0x01 }
        ⟨true, .none, .read, lba⟩ s)) ∧
    (s.br.addrCount = 3 → s.br.dir = .read → ¬Accepts s lba →
      exec (.iwData d) s = .next (held (failed { s.br with lba := lba }) s.co s)) ∧
    (s.br.addrCount = 3 → s.br.dir = .write →
      exec (.iwData d) s = .next (held { s.br with
        lba := lba, addrCount := 4, state := .awaitPayload, cursor := 0, status := 0x00 } s.co s))

/-- R187, R188: a data-port write in AWAIT_PAYLOAD stores payload byte k at buf[k]; the 512th starts the
write, or fails when the start is rejected. -/
def Obligations.PayloadBytesFillBuffer : Prop :=
  ∀ (s : State) (d : Byte) (buf : Buffer), s.br.state = .awaitPayload →
    buf.bytes = s.br.buf.bytes.set s.br.cursor d →
    (s.br.cursor < 511 →
      exec (.iwData d) s = .next (held { s.br with buf := buf, cursor := s.br.cursor + 1 } s.co s)) ∧
    (s.br.cursor = 511 → Accepts s s.br.lba →
      exec (.iwData d) s = .next (held { s.br with
        buf := buf, cursor := 512, state := .writePending, status := 0x01 }
        ⟨true, .none, .write, s.br.lba⟩ s)) ∧
    (s.br.cursor = 511 → ¬Accepts s s.br.lba →
      exec (.iwData d) s = .next (held (failed { s.br with buf := buf }) s.co s))

/-- R189, R197: out of phase a data-port read drives the sentinel and a data-port write only holds for WR;
nothing else changes. A data-port read is out of phase in every state but SENDING. -/
def Obligations.DataPortOutOfPhase : Prop :=
  (∀ s : State, exec .irDataOther s = .next (driven 0xFF s)) ∧
  (∀ s : State, s.cfg.bridgeEn = true → s.par.dataPort ≠ s.par.ctrlPort → s.br.state ≠ .sending →
    decode (ctxOf s) (portRead (ctxOf s) s.par.dataPort) = .irDataOther) ∧
  (∀ (s : State) (d : Byte), s.br.state ≠ .awaitAddr → s.br.state ≠ .awaitPayload →
    exec (.iwData d) s = .next { s with fsm := .writeHold })

/-- R54, R75: four LBA bytes written from the start of a write's address phase give their little-endian value. -/
def Obligations.FourAddressBytesAreLittleEndian : Prop :=
  ∀ (s : State) (b0 b1 b2 b3 : Byte), s.br.state = .awaitAddr → s.br.dir = .write → s.br.addrCount = 0 → s.br.lba = 0 →
    ∃ t : State, dataWrites [b0, b1, b2, b3] s = .next t ∧ t.br.state = .awaitPayload ∧
      t.br.lba.toNat = b0.toNat + b1.toNat * 2 ^ 8 + b2.toNat * 2 ^ 16 + b3.toNat * 2 ^ 24

/-- R75, R187, R188: 512 payload bytes written from the start of the payload phase fill the buffer in write
order and start the write of the collected LBA. -/
def Obligations.PayloadPhaseStartsWrite : Prop :=
  ∀ (s : State) (ds : List Byte), s.br.state = .awaitPayload → s.br.cursor = 0 → ds.length = 512 → Accepts s s.br.lba →
    ∃ t : State, dataWrites ds s = .next t ∧ t.br.buf.bytes = ds ∧ t.br.state = .writePending ∧ t.br.status = 0x01 ∧
      t.co = ⟨true, .none, .write, s.br.lba⟩

/-- R75, R196, R225: the data-port reads of a response return its bytes in order, and after the last of them
the session is IDLE and Ready. -/
def Obligations.DataReadsReturnResponse : Prop :=
  ∀ (s : State) (n : Nat), s.br.state = .sending → 1 ≤ s.br.remaining → s.br.cursor + s.br.remaining ≤ 512 →
    n ≤ s.br.remaining →
    ∃ t : State, dataReads n s = some ((s.br.buf.bytes.drop s.br.cursor).take n, t) ∧
      t.br.remaining = s.br.remaining - n ∧ t.br.buf = s.br.buf ∧
      (n < s.br.remaining → t.br.state = .sending ∧ t.br.status = s.br.status) ∧
      (n = s.br.remaining → t.br.state = .idle ∧ t.br.status = 0x00)

/-- R199: READ_NEXT after a completed read starts the same operation as READ_BLOCK with the next LBA written
out: the coordinator ends the same, and so do the state and the status of the session. -/
def Obligations.ReadNextMatchesExplicitRead : Prop :=
  ∀ (s : State) (b0 b1 b2 b3 : Byte), pending s.br = false → s.br.seqValid = true → s.br.seqDir = .read →
    le32 b0 b1 b2 b3 = s.br.lba + 1 → Accepts s (s.br.lba + 1) →
    ∃ t u v : State, exec .iwCtrlReadNext s = .next t ∧ exec .iwCtrlReadBlock s = .next u ∧
      dataWrites [b0, b1, b2, b3] (release u) = .next v ∧
      t.co = v.co ∧ t.br.state = v.br.state ∧ t.br.status = v.br.status ∧ t.br.lba = v.br.lba

/-! ## The coordinator and the device -/

/-- R211: a start is rejected while an operation is in flight, with no device ready, or out of range; else
it sets the coordinator and nothing else. -/
def Obligations.StartAcceptsInRange : Prop :=
  ∀ (s : State) (kind : Dir) (lba : U32),
    (Accepts s lba → start kind lba s = some { s with co := ⟨true, .none, kind, lba⟩ }) ∧
    (¬Accepts s lba → start kind lba s = none)

/-- R213: the completion step, enabled while an operation is in flight, records the outcome and, for a
successful read, fills the buffer. -/
def Obligations.CompleteRecordsOutcome : Prop :=
  ∀ (s : State) (ok : Bool) (data : Buffer), s.co.inFlight = true →
    runEvent (.complete ok data) s = .next { s with
      co := { s.co with inFlight := false, result := if ok then .ready else .failed }
      br := if s.co.op = .read ∧ ok = true then { s.br with buf := data } else s.br }

/-- R217: a mount in configuration 10 makes the device ready and starts the session clean. -/
def Obligations.MountStartsClean : Prop :=
  ∀ (s : State) (c : U32), s.cfg.bridgeEn = true → s.dev.ready = false →
    runEvent (.mount c) s = .next { s with
      dev := ⟨true, c⟩
      co := { s.co with inFlight := false, result := .none }
      br := { s.br with state := .idle, status := 0x00, seqValid := false, addrCount := 0, cursor := 0, remaining := 0 } }

/-- R218: a removal in configuration 10 drops the session and what is in flight, with status Error. -/
def Obligations.RemoveDropsSession : Prop :=
  ∀ s : State, s.cfg.bridgeEn = true → s.dev.ready = true →
    runEvent .remove s = .next { s with
      dev := { s.dev with ready := false }
      co := { s.co with inFlight := false, result := .none }
      br := failed s.br }

/-- R234 and the model's choice (log 3): in configurations 1 to 9 a mount or a removal changes only the
device; an event that is not enabled changes nothing. -/
def Obligations.OtherDeviceEventsLeaveCore : Prop :=
  ∀ (s : State) (c : U32) (ok : Bool) (data : Buffer),
    (s.phase = .serve → s.cfg.bridgeEn = false → s.dev.ready = false →
      runEvent (.mount c) s = .next { s with dev := ⟨true, c⟩ }) ∧
    (s.phase = .serve → s.cfg.bridgeEn = false → s.dev.ready = true →
      runEvent .remove s = .next { s with dev := { s.dev with ready := false } }) ∧
    (s.dev.ready = true → runEvent (.mount c) s = .next s) ∧
    (s.dev.ready = false → runEvent .remove s = .next s) ∧
    (s.co.inFlight = false → runEvent (.complete ok data) s = .next s)

/-- R60, R190: while an operation is in flight no BUS step reads or changes the shared buffer: the buffer
stays, and two states that differ only in it go on differing only in it. -/
def Obligations.BusLeavesBufferInFlight : Prop :=
  ∀ (s t : State) (snap : Snapshot) (buf : Buffer), CoreInv s → s.co.inFlight = true → busStep snap s = .next t →
    t.br.buf = s.br.buf ∧
    busStep snap { s with br := { s.br with buf := buf } } = .next { t with br := { t.br with buf := buf } }

/-- R39, R140 and the model's choice (log 14): the states the spec calls unreachable stop by name. -/
def Obligations.MalformedStatesStopByName : Prop :=
  ∀ (s : State) (d : Byte) (rel : Nat),
    (512 ≤ s.br.cursor ∨ s.br.remaining = 0 → exec .irDataSending s = .fault .malformedState) ∧
    (s.br.state = .awaitAddr → 4 ≤ s.br.addrCount → exec (.iwData d) s = .fault .malformedState) ∧
    (s.br.state = .awaitPayload → 512 ≤ s.br.cursor → exec (.iwData d) s = .fault .malformedState) ∧
    (s.co.inFlight = false → s.co.result = .ready → pending s.br = false → absorb s = .fault .malformedState) ∧
    (rel < s.cfg.romSize.toNat → s.cfg.stagedLen.toNat ≤ rel → s.par.storeLen ≤ s.cfg.romBase.toNat + rel →
      serveRead (bounded s rel) s = .fault .storeRange)
end

