-- ==== Sys2Proof/Laws/State.lean ====
section
/-! SUPPORT. What each named update of State does to each field. -/

namespace Sys2Proof.Machine

@[simp] theorem drive_par (b : Byte) (s : State) : (drive b s).par = s.par := rfl
@[simp] theorem drive_dev (b : Byte) (s : State) : (drive b s).dev = s.dev := rfl
@[simp] theorem drive_inputs (b : Byte) (s : State) : (drive b s).inputs = s.inputs := rfl
@[simp] theorem drive_draws (b : Byte) (s : State) : (drive b s).draws = s.draws := rfl
@[simp] theorem drive_phase (b : Byte) (s : State) : (drive b s).phase = s.phase := rfl
@[simp] theorem drive_fsm (b : Byte) (s : State) : (drive b s).fsm = .readHold := rfl
@[simp] theorem drive_dout (b : Byte) (s : State) : (drive b s).dout = b := rfl
@[simp] theorem drive_cfg (b : Byte) (s : State) : (drive b s).cfg = s.cfg := rfl
@[simp] theorem drive_bank (b : Byte) (s : State) : (drive b s).bank = s.bank := rfl
@[simp] theorem drive_cache (b : Byte) (s : State) : (drive b s).cache = s.cache := rfl
@[simp] theorem drive_br (b : Byte) (s : State) : (drive b s).br = s.br := rfl
@[simp] theorem drive_co (b : Byte) (s : State) : (drive b s).co = s.co := rfl

@[simp] theorem release_par (s : State) : (release s).par = s.par := rfl
@[simp] theorem release_dev (s : State) : (release s).dev = s.dev := rfl
@[simp] theorem release_inputs (s : State) : (release s).inputs = s.inputs := rfl
@[simp] theorem release_draws (s : State) : (release s).draws = s.draws := rfl
@[simp] theorem release_phase (s : State) : (release s).phase = s.phase := rfl
@[simp] theorem release_fsm (s : State) : (release s).fsm = .idle := rfl
@[simp] theorem release_dout (s : State) : (release s).dout = s.dout := rfl
@[simp] theorem release_cfg (s : State) : (release s).cfg = s.cfg := rfl
@[simp] theorem release_bank (s : State) : (release s).bank = s.bank := rfl
@[simp] theorem release_cache (s : State) : (release s).cache = s.cache := rfl
@[simp] theorem release_br (s : State) : (release s).br = s.br := rfl
@[simp] theorem release_co (s : State) : (release s).co = s.co := rfl

@[simp] theorem holdWrite_par (s : State) : (holdWrite s).par = s.par := rfl
@[simp] theorem holdWrite_dev (s : State) : (holdWrite s).dev = s.dev := rfl
@[simp] theorem holdWrite_inputs (s : State) : (holdWrite s).inputs = s.inputs := rfl
@[simp] theorem holdWrite_draws (s : State) : (holdWrite s).draws = s.draws := rfl
@[simp] theorem holdWrite_phase (s : State) : (holdWrite s).phase = s.phase := rfl
@[simp] theorem holdWrite_fsm (s : State) : (holdWrite s).fsm = .writeHold := rfl
@[simp] theorem holdWrite_dout (s : State) : (holdWrite s).dout = s.dout := rfl
@[simp] theorem holdWrite_cfg (s : State) : (holdWrite s).cfg = s.cfg := rfl
@[simp] theorem holdWrite_bank (s : State) : (holdWrite s).bank = s.bank := rfl
@[simp] theorem holdWrite_cache (s : State) : (holdWrite s).cache = s.cache := rfl
@[simp] theorem holdWrite_br (s : State) : (holdWrite s).br = s.br := rfl
@[simp] theorem holdWrite_co (s : State) : (holdWrite s).co = s.co := rfl

@[simp] theorem setBank_par (r : Fin 6) (v : BankReg) (s : State) : (setBank r v s).par = s.par := rfl
@[simp] theorem setBank_dev (r : Fin 6) (v : BankReg) (s : State) : (setBank r v s).dev = s.dev := rfl
@[simp] theorem setBank_inputs (r : Fin 6) (v : BankReg) (s : State) : (setBank r v s).inputs = s.inputs := rfl
@[simp] theorem setBank_draws (r : Fin 6) (v : BankReg) (s : State) : (setBank r v s).draws = s.draws := rfl
@[simp] theorem setBank_phase (r : Fin 6) (v : BankReg) (s : State) : (setBank r v s).phase = s.phase := rfl
@[simp] theorem setBank_fsm (r : Fin 6) (v : BankReg) (s : State) : (setBank r v s).fsm = s.fsm := rfl
@[simp] theorem setBank_dout (r : Fin 6) (v : BankReg) (s : State) : (setBank r v s).dout = s.dout := rfl
@[simp] theorem setBank_cfg (r : Fin 6) (v : BankReg) (s : State) : (setBank r v s).cfg = s.cfg := rfl
@[simp] theorem setBank_bank (r : Fin 6) (v : BankReg) (s : State) : (setBank r v s).bank = s.bank.set r v := rfl
@[simp] theorem setBank_cache (r : Fin 6) (v : BankReg) (s : State) : (setBank r v s).cache = s.cache := rfl
@[simp] theorem setBank_br (r : Fin 6) (v : BankReg) (s : State) : (setBank r v s).br = s.br := rfl
@[simp] theorem setBank_co (r : Fin 6) (v : BankReg) (s : State) : (setBank r v s).co = s.co := rfl

@[simp] theorem setBridge_par (br : Bridge) (s : State) : (setBridge br s).par = s.par := rfl
@[simp] theorem setBridge_dev (br : Bridge) (s : State) : (setBridge br s).dev = s.dev := rfl
@[simp] theorem setBridge_inputs (br : Bridge) (s : State) : (setBridge br s).inputs = s.inputs := rfl
@[simp] theorem setBridge_draws (br : Bridge) (s : State) : (setBridge br s).draws = s.draws := rfl
@[simp] theorem setBridge_phase (br : Bridge) (s : State) : (setBridge br s).phase = s.phase := rfl
@[simp] theorem setBridge_fsm (br : Bridge) (s : State) : (setBridge br s).fsm = s.fsm := rfl
@[simp] theorem setBridge_dout (br : Bridge) (s : State) : (setBridge br s).dout = s.dout := rfl
@[simp] theorem setBridge_cfg (br : Bridge) (s : State) : (setBridge br s).cfg = s.cfg := rfl
@[simp] theorem setBridge_bank (br : Bridge) (s : State) : (setBridge br s).bank = s.bank := rfl
@[simp] theorem setBridge_cache (br : Bridge) (s : State) : (setBridge br s).cache = s.cache := rfl
@[simp] theorem setBridge_br (br : Bridge) (s : State) : (setBridge br s).br = br := rfl
@[simp] theorem setBridge_co (br : Bridge) (s : State) : (setBridge br s).co = s.co := rfl

@[simp] theorem setCoord_par (co : Coord) (s : State) : (setCoord co s).par = s.par := rfl
@[simp] theorem setCoord_dev (co : Coord) (s : State) : (setCoord co s).dev = s.dev := rfl
@[simp] theorem setCoord_inputs (co : Coord) (s : State) : (setCoord co s).inputs = s.inputs := rfl
@[simp] theorem setCoord_draws (co : Coord) (s : State) : (setCoord co s).draws = s.draws := rfl
@[simp] theorem setCoord_phase (co : Coord) (s : State) : (setCoord co s).phase = s.phase := rfl
@[simp] theorem setCoord_fsm (co : Coord) (s : State) : (setCoord co s).fsm = s.fsm := rfl
@[simp] theorem setCoord_dout (co : Coord) (s : State) : (setCoord co s).dout = s.dout := rfl
@[simp] theorem setCoord_cfg (co : Coord) (s : State) : (setCoord co s).cfg = s.cfg := rfl
@[simp] theorem setCoord_bank (co : Coord) (s : State) : (setCoord co s).bank = s.bank := rfl
@[simp] theorem setCoord_cache (co : Coord) (s : State) : (setCoord co s).cache = s.cache := rfl
@[simp] theorem setCoord_br (co : Coord) (s : State) : (setCoord co s).br = s.br := rfl
@[simp] theorem setCoord_co (co : Coord) (s : State) : (setCoord co s).co = co := rfl

@[simp] theorem setDevice_par (dev : Device) (s : State) : (setDevice dev s).par = s.par := rfl
@[simp] theorem setDevice_dev (dev : Device) (s : State) : (setDevice dev s).dev = dev := rfl
@[simp] theorem setDevice_inputs (dev : Device) (s : State) : (setDevice dev s).inputs = s.inputs := rfl
@[simp] theorem setDevice_draws (dev : Device) (s : State) : (setDevice dev s).draws = s.draws := rfl
@[simp] theorem setDevice_phase (dev : Device) (s : State) : (setDevice dev s).phase = s.phase := rfl
@[simp] theorem setDevice_fsm (dev : Device) (s : State) : (setDevice dev s).fsm = s.fsm := rfl
@[simp] theorem setDevice_dout (dev : Device) (s : State) : (setDevice dev s).dout = s.dout := rfl
@[simp] theorem setDevice_cfg (dev : Device) (s : State) : (setDevice dev s).cfg = s.cfg := rfl
@[simp] theorem setDevice_bank (dev : Device) (s : State) : (setDevice dev s).bank = s.bank := rfl
@[simp] theorem setDevice_cache (dev : Device) (s : State) : (setDevice dev s).cache = s.cache := rfl
@[simp] theorem setDevice_br (dev : Device) (s : State) : (setDevice dev s).br = s.br := rfl
@[simp] theorem setDevice_co (dev : Device) (s : State) : (setDevice dev s).co = s.co := rfl

@[simp] theorem setInputs_par (inputs : List Instant) (s : State) : (setInputs inputs s).par = s.par := rfl
@[simp] theorem setInputs_dev (inputs : List Instant) (s : State) : (setInputs inputs s).dev = s.dev := rfl
@[simp] theorem setInputs_inputs (inputs : List Instant) (s : State) : (setInputs inputs s).inputs = inputs := rfl
@[simp] theorem setInputs_draws (inputs : List Instant) (s : State) : (setInputs inputs s).draws = s.draws := rfl
@[simp] theorem setInputs_phase (inputs : List Instant) (s : State) : (setInputs inputs s).phase = s.phase := rfl
@[simp] theorem setInputs_fsm (inputs : List Instant) (s : State) : (setInputs inputs s).fsm = s.fsm := rfl
@[simp] theorem setInputs_dout (inputs : List Instant) (s : State) : (setInputs inputs s).dout = s.dout := rfl
@[simp] theorem setInputs_cfg (inputs : List Instant) (s : State) : (setInputs inputs s).cfg = s.cfg := rfl
@[simp] theorem setInputs_bank (inputs : List Instant) (s : State) : (setInputs inputs s).bank = s.bank := rfl
@[simp] theorem setInputs_cache (inputs : List Instant) (s : State) : (setInputs inputs s).cache = s.cache := rfl
@[simp] theorem setInputs_br (inputs : List Instant) (s : State) : (setInputs inputs s).br = s.br := rfl
@[simp] theorem setInputs_co (inputs : List Instant) (s : State) : (setInputs inputs s).co = s.co := rfl

@[simp] theorem nextDraw_par (s : State) : (nextDraw s).par = s.par := rfl
@[simp] theorem nextDraw_dev (s : State) : (nextDraw s).dev = s.dev := rfl
@[simp] theorem nextDraw_inputs (s : State) : (nextDraw s).inputs = s.inputs := rfl
@[simp] theorem nextDraw_draws (s : State) : (nextDraw s).draws = s.draws + 1 := rfl
@[simp] theorem nextDraw_phase (s : State) : (nextDraw s).phase = s.phase := rfl
@[simp] theorem nextDraw_fsm (s : State) : (nextDraw s).fsm = s.fsm := rfl
@[simp] theorem nextDraw_dout (s : State) : (nextDraw s).dout = s.dout := rfl
@[simp] theorem nextDraw_cfg (s : State) : (nextDraw s).cfg = s.cfg := rfl
@[simp] theorem nextDraw_bank (s : State) : (nextDraw s).bank = s.bank := rfl
@[simp] theorem nextDraw_cache (s : State) : (nextDraw s).cache = s.cache := rfl
@[simp] theorem nextDraw_br (s : State) : (nextDraw s).br = s.br := rfl
@[simp] theorem nextDraw_co (s : State) : (nextDraw s).co = s.co := rfl

@[simp] theorem clearResult_par (s : State) : (clearResult s).par = s.par := rfl
@[simp] theorem clearResult_dev (s : State) : (clearResult s).dev = s.dev := rfl
@[simp] theorem clearResult_inputs (s : State) : (clearResult s).inputs = s.inputs := rfl
@[simp] theorem clearResult_draws (s : State) : (clearResult s).draws = s.draws := rfl
@[simp] theorem clearResult_phase (s : State) : (clearResult s).phase = s.phase := rfl
@[simp] theorem clearResult_fsm (s : State) : (clearResult s).fsm = s.fsm := rfl
@[simp] theorem clearResult_dout (s : State) : (clearResult s).dout = s.dout := rfl
@[simp] theorem clearResult_cfg (s : State) : (clearResult s).cfg = s.cfg := rfl
@[simp] theorem clearResult_bank (s : State) : (clearResult s).bank = s.bank := rfl
@[simp] theorem clearResult_cache (s : State) : (clearResult s).cache = s.cache := rfl
@[simp] theorem clearResult_br (s : State) : (clearResult s).br = s.br := rfl
@[simp] theorem clearResult_co (s : State) : (clearResult s).co = { s.co with result := .none } := rfl

@[simp] theorem failOp_par (s : State) : (failOp s).par = s.par := rfl
@[simp] theorem failOp_dev (s : State) : (failOp s).dev = s.dev := rfl
@[simp] theorem failOp_inputs (s : State) : (failOp s).inputs = s.inputs := rfl
@[simp] theorem failOp_draws (s : State) : (failOp s).draws = s.draws := rfl
@[simp] theorem failOp_phase (s : State) : (failOp s).phase = s.phase := rfl
@[simp] theorem failOp_fsm (s : State) : (failOp s).fsm = s.fsm := rfl
@[simp] theorem failOp_dout (s : State) : (failOp s).dout = s.dout := rfl
@[simp] theorem failOp_cfg (s : State) : (failOp s).cfg = s.cfg := rfl
@[simp] theorem failOp_bank (s : State) : (failOp s).bank = s.bank := rfl
@[simp] theorem failOp_cache (s : State) : (failOp s).cache = s.cache := rfl
@[simp] theorem failOp_br (s : State) : (failOp s).br = failBridge s.br := rfl
@[simp] theorem failOp_co (s : State) : (failOp s).co = s.co := rfl

@[simp] theorem sendOp_par (bytes : List Byte) (s : State) : (sendOp bytes s).par = s.par := rfl
@[simp] theorem sendOp_dev (bytes : List Byte) (s : State) : (sendOp bytes s).dev = s.dev := rfl
@[simp] theorem sendOp_inputs (bytes : List Byte) (s : State) : (sendOp bytes s).inputs = s.inputs := rfl
@[simp] theorem sendOp_draws (bytes : List Byte) (s : State) : (sendOp bytes s).draws = s.draws := rfl
@[simp] theorem sendOp_phase (bytes : List Byte) (s : State) : (sendOp bytes s).phase = s.phase := rfl
@[simp] theorem sendOp_fsm (bytes : List Byte) (s : State) : (sendOp bytes s).fsm = s.fsm := rfl
@[simp] theorem sendOp_dout (bytes : List Byte) (s : State) : (sendOp bytes s).dout = s.dout := rfl
@[simp] theorem sendOp_cfg (bytes : List Byte) (s : State) : (sendOp bytes s).cfg = s.cfg := rfl
@[simp] theorem sendOp_bank (bytes : List Byte) (s : State) : (sendOp bytes s).bank = s.bank := rfl
@[simp] theorem sendOp_cache (bytes : List Byte) (s : State) : (sendOp bytes s).cache = s.cache := rfl
@[simp] theorem sendOp_br (bytes : List Byte) (s : State) : (sendOp bytes s).br = sendBridge bytes s.br := rfl
@[simp] theorem sendOp_co (bytes : List Byte) (s : State) : (sendOp bytes s).co = s.co := rfl

@[simp] theorem halt_par (s : State) : (halt s).par = s.par := rfl
@[simp] theorem halt_dev (s : State) : (halt s).dev = s.dev := rfl
@[simp] theorem halt_inputs (s : State) : (halt s).inputs = s.inputs := rfl
@[simp] theorem halt_draws (s : State) : (halt s).draws = s.draws := rfl
@[simp] theorem halt_phase (s : State) : (halt s).phase = .halt := rfl
@[simp] theorem halt_fsm (s : State) : (halt s).fsm = s.fsm := rfl
@[simp] theorem halt_dout (s : State) : (halt s).dout = s.dout := rfl
@[simp] theorem halt_cfg (s : State) : (halt s).cfg = s.cfg := rfl
@[simp] theorem halt_bank (s : State) : (halt s).bank = s.bank := rfl
@[simp] theorem halt_cache (s : State) : (halt s).cache = s.cache := rfl
@[simp] theorem halt_br (s : State) : (halt s).br = s.br := rfl
@[simp] theorem halt_co (s : State) : (halt s).co = s.co := rfl

@[simp] theorem setCfg_par (cfg : Cfg) (s : State) : (setCfg cfg s).par = s.par := rfl
@[simp] theorem setCfg_dev (cfg : Cfg) (s : State) : (setCfg cfg s).dev = s.dev := rfl
@[simp] theorem setCfg_inputs (cfg : Cfg) (s : State) : (setCfg cfg s).inputs = s.inputs := rfl
@[simp] theorem setCfg_draws (cfg : Cfg) (s : State) : (setCfg cfg s).draws = s.draws := rfl
@[simp] theorem setCfg_phase (cfg : Cfg) (s : State) : (setCfg cfg s).phase = s.phase := rfl
@[simp] theorem setCfg_fsm (cfg : Cfg) (s : State) : (setCfg cfg s).fsm = s.fsm := rfl
@[simp] theorem setCfg_dout (cfg : Cfg) (s : State) : (setCfg cfg s).dout = s.dout := rfl
@[simp] theorem setCfg_cfg (cfg : Cfg) (s : State) : (setCfg cfg s).cfg = cfg := rfl
@[simp] theorem setCfg_bank (cfg : Cfg) (s : State) : (setCfg cfg s).bank = s.bank := rfl
@[simp] theorem setCfg_cache (cfg : Cfg) (s : State) : (setCfg cfg s).cache = s.cache := rfl
@[simp] theorem setCfg_br (cfg : Cfg) (s : State) : (setCfg cfg s).br = s.br := rfl
@[simp] theorem setCfg_co (cfg : Cfg) (s : State) : (setCfg cfg s).co = s.co := rfl

@[simp] theorem stage_par (s : State) : (stage s).par = s.par := rfl
@[simp] theorem stage_dev (s : State) : (stage s).dev = s.dev := rfl
@[simp] theorem stage_inputs (s : State) : (stage s).inputs = s.inputs := rfl
@[simp] theorem stage_draws (s : State) : (stage s).draws = s.draws := rfl
@[simp] theorem stage_phase (s : State) : (stage s).phase = s.phase := rfl
@[simp] theorem stage_fsm (s : State) : (stage s).fsm = s.fsm := rfl
@[simp] theorem stage_dout (s : State) : (stage s).dout = s.dout := rfl
@[simp] theorem stage_cfg (s : State) : (stage s).cfg = s.cfg := rfl
@[simp] theorem stage_bank (s : State) : (stage s).bank = s.bank := rfl
@[simp] theorem stage_cache (s : State) : (stage s).cache = Memory.stage s.cache s.par.store s.cfg.romBase.toNat s.cfg.stagedLen.toNat := rfl
@[simp] theorem stage_br (s : State) : (stage s).br = s.br := rfl
@[simp] theorem stage_co (s : State) : (stage s).co = s.co := rfl

@[simp] theorem enterServe_par (s : State) : (enterServe s).par = s.par := rfl
@[simp] theorem enterServe_dev (s : State) : (enterServe s).dev = s.dev := rfl
@[simp] theorem enterServe_inputs (s : State) : (enterServe s).inputs = s.inputs := rfl
@[simp] theorem enterServe_draws (s : State) : (enterServe s).draws = s.draws := rfl
@[simp] theorem enterServe_phase (s : State) : (enterServe s).phase = .serve := rfl
@[simp] theorem enterServe_fsm (s : State) : (enterServe s).fsm = .idle := rfl
@[simp] theorem enterServe_dout (s : State) : (enterServe s).dout = s.dout := rfl
@[simp] theorem enterServe_cfg (s : State) : (enterServe s).cfg = s.cfg := rfl
@[simp] theorem enterServe_bank (s : State) : (enterServe s).bank = ascendingBanks s.cfg.scheme s.bank := rfl
@[simp] theorem enterServe_cache (s : State) : (enterServe s).cache = s.cache := rfl
@[simp] theorem enterServe_br (s : State) : (enterServe s).br = s.br := rfl
@[simp] theorem enterServe_co (s : State) : (enterServe s).co = s.co := rfl

end Sys2Proof.Machine
end

