-- ==== Sys2Proof/Laws/Ops.lean ====
section
/-! SUPPORT. What each shared operation does, said once: the store resolver, the mapper's cycles, the bridge's
commands, address and payload bytes, and the coordinator's start, completion and absorption. -/

namespace Sys2Proof.Machine

/-! ## The resolver and the read cycles -/

/-- The resolver inside the payload gives the byte the payload shows there (R143, R144). -/
theorem resolve_payload {s : State} (h : StoreReady s) {rel : Nat} (hr : rel < s.cfg.romSize.toNat) :
    resolve s (s.cfg.romBase.toNat + rel) = some (payload s rel) := by
  have hp := h.payloadInStore
  simp only [resolve, Nat.add_sub_cancel_left, payload, if_pos hr]
  split
  · rename_i hc
    rw [h.cacheCopies rel hc]
  · rw [storeRead, if_pos (by omega)]

/-- A bounded read drives the byte the payload shows (R113, R152). -/
theorem serveRead_bounded {s : State} (h : StoreReady s) (rel : Nat) :
    serveRead (bounded s rel) s = .next (drive (payload s rel) s) := by
  unfold bounded
  split
  · rename_i hr
    simp only [serveRead, resolve_payload h hr]
  · rename_i hr
    simp only [serveRead, payload, if_neg hr]

/-- A flat read drives the byte the payload shows at its offset (R111). -/
theorem flatCycle_eq {s : State} (h : StoreReady s) (rel : Nat) :
    flatCycle rel s = .next (drive (payload s rel) s) := serveRead_bounded h rel

/-- A segmented read drives the byte the payload shows at its register's segment (R112). -/
theorem segCycle_eq {s : State} (h : StoreReady s) (i : Fin 6) (w wsize off : Nat) :
    segCycle i w wsize off s = .next (drive (payload s (bankValue s i w * wsize + off)) s) := serveRead_bounded h _

/-- A register within its width is its own value (R39 item 7, R112). -/
theorem bankValue_eq {s : State} {i : Fin 6} {w : Nat} (h : s.bank[i].toNat < 2 ^ w) :
    bankValue s i w = s.bank[i].toNat := Nat.mod_eq_of_lt h

/-- Every register is within 12 bits. -/
theorem bankValue_twelve (s : State) (i : Fin 6) : bankValue s i 12 = s.bank[i].toNat :=
  bankValue_eq s.bank[i].isLt

/-- A draw leaves the state but for the count of draws, or drives some byte as well (R115). -/
theorem drawCycle_cases (s : State) :
    drawCycle s = nextDraw s ∨ ∃ b, drawCycle s = drive b (nextDraw s) := by
  unfold drawCycle
  split
  · exact .inr ⟨_, rfl⟩
  · exact .inl rfl

/-- What a served read changes: the latch, the FSM and the count of draws, nothing else. -/
theorem serveRead_frame {r : ReadResult} {s t : State} (h : serveRead r s = .next t) :
    t = s ∨ t = nextDraw s ∨ (∃ b, t = drive b s) ∨ ∃ b, t = drive b (nextDraw s) := by
  cases r with
  | none => simp only [serveRead, Host.Outcome.next.injEq] at h; exact .inl h.symm
  | byte off =>
    simp only [serveRead] at h
    split at h
    · simp only [Host.Outcome.next.injEq] at h; exact .inr (.inr (.inl ⟨_, h.symm⟩))
    · cases h
  | fill => simp only [serveRead, Host.Outcome.next.injEq] at h; exact .inr (.inr (.inl ⟨_, h.symm⟩))
  | unspec =>
    simp only [serveRead, Host.Outcome.next.injEq] at h
    rcases drawCycle_cases s with hd | ⟨b, hd⟩
    · exact .inr (.inl (h.symm.trans hd))
    · exact .inr (.inr (.inr ⟨b, h.symm.trans hd⟩))

/-! ## Switch writes -/

/-- The whole-byte lane of an 8-bit register is the byte (R116). -/
@[simp] theorem laneValue_all (old : BankReg) (d : Byte) : laneValue 8 .all old d = d.setWidth 12 := by
  apply BitVec.eq_of_toNat_eq
  have := d.isLt
  simp only [laneValue, BitVec.toNat_ofNat, BitVec.toNat_setWidth]
  omega

/-- In a table of disjoint entries the entry that holds an address is the one found (R82). -/
theorem findEntry_of_mem {t : List SwitchEntry} {e : SwitchEntry} {a : Addr}
    (hd : t.Pairwise fun e f => e.hi.toNat < f.lo.toNat ∨ f.hi.toNat < e.lo.toNat) (he : e ∈ t)
    (hlo : e.lo.toNat ≤ a.toNat) (hhi : a.toNat ≤ e.hi.toNat) : findEntry t a = some e := by
  induction t with
  | nil => cases he
  | cons f u ih =>
    rw [List.pairwise_cons] at hd
    rcases List.mem_cons.1 he with rfl | he
    · simp [findEntry, hlo, hhi]
    · have := hd.1 e he
      rw [← ih hd.2 he]
      unfold findEntry
      rw [List.find?_cons_of_neg]
      simp only [Bool.and_eq_true, decide_eq_true_eq]
      omega

/-- An entry that is found lies in the table and holds the address. -/
theorem mem_of_findEntry {t : List SwitchEntry} {e : SwitchEntry} {a : Addr} (h : findEntry t a = some e) :
    e ∈ t ∧ e.lo.toNat ≤ a.toNat ∧ a.toNat ≤ e.hi.toNat := by
  have h1 := List.mem_of_find?_eq_some h
  have h2 := List.find?_some h
  simp only [Bool.and_eq_true, decide_eq_true_eq] at h2
  exact ⟨h1, h2⟩

/-- No entry is found exactly where none holds the address. -/
theorem findEntry_eq_none {t : List SwitchEntry} {a : Addr} :
    findEntry t a = none ↔ ∀ e ∈ t, ¬(e.lo.toNat ≤ a.toNat ∧ a.toNat ≤ e.hi.toNat) := by
  simp [findEntry]

/-! ## The coordinator -/

/-- R211: an accepted start sets the coordinator and nothing else. -/
theorem start_accepted {s : State} {lba : U32} (h : Accepts s lba) (kind : Dir) :
    start kind lba s = some (setCoord ⟨true, .none, kind, lba⟩ s) := by
  obtain ⟨h1, h2, h3⟩ := h
  simp [start, h1, h2, h3]

/-- R211: every other start is rejected. -/
theorem start_rejected {s : State} {lba : U32} (h : ¬Accepts s lba) (kind : Dir) : start kind lba s = none := by
  unfold start
  rw [if_pos]
  by_contra hn
  simp only [Bool.or_eq_true, Bool.not_eq_true', decide_eq_true_eq, not_or, Bool.not_eq_true,
    Bool.not_eq_false, Nat.not_le] at hn
  exact h ⟨hn.1.1, hn.1.2, hn.2⟩

/-- R182: what an accepted `Issue` leaves. -/
theorem issue_accepted {s : State} {lba : U32} (h : Accepts s lba) (kind : Dir) :
    issue kind lba s = setBridge { s.br with lba := lba, state := pendingState kind, status := statusBusy }
      (setCoord ⟨true, .none, kind, lba⟩ s) := by
  simp only [issue, start_accepted h, setCoord_br]

/-- R182: what a rejected `Issue` leaves. -/
theorem issue_rejected {s : State} {lba : U32} (h : ¬Accepts s lba) (kind : Dir) : issue kind lba s = failOp s := by
  simp only [issue, start_rejected h]

/-- R182: `Issue` from a state whose session was replaced, accepted. -/
theorem issue_setBridge_accepted {s : State} {lba : U32} (h : Accepts s lba) (kind : Dir) (br : Bridge) :
    issue kind lba (setBridge br s) = setBridge { br with lba := lba, state := pendingState kind, status := statusBusy }
      (setCoord ⟨true, .none, kind, lba⟩ s) := by
  rw [issue_accepted (s := setBridge br s) h]
  rfl

/-- R182: `Issue` from a state whose session was replaced, rejected. -/
theorem issue_setBridge_rejected {s : State} {lba : U32} (h : ¬Accepts s lba) (kind : Dir) (br : Bridge) :
    issue kind lba (setBridge br s) = setBridge (failBridge br) s := by
  rw [issue_rejected (s := setBridge br s) h]
  rfl

/-- What a completion event does when it is enabled (R213). -/
theorem completeEvent_inFlight {s : State} (h : s.co.inFlight = true) (ok : Bool) (data : Buffer) :
    completeEvent ok data s = setCoord { s.co with inFlight := false, result := if ok then .ready else .failed }
      (if ok && s.co.op == .read then setBridge { s.br with buf := data } s else s) := by
  simp only [completeEvent, h, if_true]

/-- A completion event that is not enabled changes nothing (R213). -/
theorem completeEvent_idle {s : State} (h : s.co.inFlight = false) (ok : Bool) (data : Buffer) :
    completeEvent ok data s = s := by simp [completeEvent, h]

/-- What an absorption that answers a next state can leave (R214). -/
theorem absorb_cases {s t : State} (h : absorb s = .next t) :
    (t = s ∧ (s.co.inFlight = true ∨ s.co.result = .none)) ∨
    (t = failOp (clearResult s) ∧ s.co.inFlight = false ∧ s.co.result = .failed) ∨
    (t = setBridge (readReady s.br) (clearResult s) ∧ s.co.inFlight = false ∧ s.co.result = .ready ∧
      s.br.state = .readPending) ∨
    (t = setBridge (writeReady s.br) (clearResult s) ∧ s.co.inFlight = false ∧ s.co.result = .ready ∧
      s.br.state = .writePending) := by
  unfold absorb at h
  split at h
  · rename_i hf
    exact .inl ⟨(Host.Outcome.next.inj h).symm, .inl hf⟩
  · rename_i hf
    have hf : s.co.inFlight = false := by simpa using hf
    split at h
    · rename_i hr
      exact .inl ⟨(Host.Outcome.next.inj h).symm, .inr hr⟩
    · rename_i hr
      exact .inr (.inl ⟨(Host.Outcome.next.inj h).symm, hf, hr⟩)
    · rename_i hr
      split at h
      · rename_i hs
        exact .inr (.inr (.inl ⟨(Host.Outcome.next.inj h).symm, hf, hr, hs⟩))
      · rename_i hs
        exact .inr (.inr (.inr ⟨(Host.Outcome.next.inj h).symm, hf, hr, hs⟩))
      all_goals cases h

/-- What the first part of a BUS step can leave (R150). -/
theorem absorbFirst_cases {s t : State} (h : absorbFirst s = .next t) :
    t = s ∨ (s.cfg.bridgeEn = true ∧ absorb s = .next t) := by
  unfold absorbFirst at h
  split at h
  · rename_i hb
    exact .inr ⟨hb, h⟩
  · exact .inl (Host.Outcome.next.inj h).symm

/-- What a BUS step that answers a next state can be (R150, R159, R160). -/
theorem busStep_cases {snap : Snapshot} {s t : State} (h : busStep snap s = .next t) :
    (t = s ∧ s.phase ≠ .serve) ∨
    (s.phase = .serve ∧ ∃ u, absorbFirst s = .next u ∧
      ((syncBlocked u = true ∧ t = u) ∨ (syncBlocked u = false ∧ fsmStep snap u = .next t))) := by
  unfold busStep at h
  split at h
  · rename_i hp
    exact .inl ⟨(Host.Outcome.next.inj h).symm, by simp [hp]⟩
  · rename_i hp
    exact .inl ⟨(Host.Outcome.next.inj h).symm, by simp [hp]⟩
  · rename_i hp
    refine .inr ⟨hp, ?_⟩
    split at h
    · rename_i u hu
      refine ⟨u, hu, ?_⟩
      split at h
      · rename_i hb
        exact .inl ⟨hb, (Host.Outcome.next.inj h).symm⟩
      · rename_i hb
        exact .inr ⟨by simpa using hb, h⟩
    · cases h
    · cases h

/-! ## The bridge -/

/-- A command written while an operation is pending is only held for WR (R171). -/
theorem commandCycle_pending {s : State} (h : pending s.br = true) (d : Byte) (body : Bool → Dir → State → State) :
    commandCycle d body s = .next (holdWrite s) := by simp only [commandCycle, h, if_true]

/-- A recognised command written in any other state runs its body from a clean phase (R170, R172, R173). -/
theorem commandCycle_runs {s : State} (h : pending s.br = false) (d : Byte) (body : Bool → Dir → State → State) :
    commandCycle d body s = .next (holdWrite (body s.br.seqValid s.br.seqDir (setBridge (takeCommand d s.br) s))) := by
  rw [commandCycle, if_neg (by simp [h])]

/-- Two buffers with the same bytes are one buffer. -/
theorem Buffer.eq_of_bytes {a b : Buffer} (h : a.bytes = b.bytes) : a = b := by
  cases a; cases b; cases h; rfl

/-- Every index below 512 holds a byte (R30). -/
theorem Buffer.byte_of_lt (buf : Buffer) {k : Nat} (h : k < 512) : ∃ b, buf.bytes[k]? = some b :=
  ⟨_, List.getElem?_eq_getElem (buf.size.symm ▸ h)⟩

/-- The bytes of a buffer after one is replaced. -/
@[simp] theorem Buffer.put_bytes (buf : Buffer) (k : Nat) (b : Byte) : (buf.put k b).bytes = buf.bytes.set k b := rfl

/-- The bytes of a response land in the first bytes of the buffer, the others stay (R175). -/
theorem loadBytes_bytes (l : List Byte) (buf : Buffer) (n : Nat) (h : n + l.length ≤ 512) :
    (loadBytes buf n l).bytes = buf.bytes.take n ++ l ++ buf.bytes.drop (n + l.length) := by
  induction l generalizing buf n with
  | nil => simp [loadBytes]
  | cons b t ih =>
    simp only [List.length_cons] at h
    have hs := buf.size
    rw [loadBytes, ih _ _ (by omega), List.length_cons, show n + (t.length + 1) = n + 1 + t.length by omega]
    simp only [Buffer.put, List.drop_set, List.take_set, show n < n + 1 + t.length by omega, if_true]
    rw [List.take_succ_eq_append_getElem (by omega), List.set_append_right _ _ (by simp)]
    simp [show min n 512 = n by omega, hs]

/-- A data-port write in AWAIT_ADDR before the fourth byte (R185). -/
theorem addrByte_more {s : State} (h : s.br.addrCount < 3) (d : Byte) :
    addrByte d s = .next (holdWrite (setBridge (addrBridge d s.br) s)) := by simp only [addrByte, h, if_true]

/-- The fourth byte of an LBA ends the address phase (R185, R186). -/
theorem addrByte_last {s : State} (h : s.br.addrCount = 3) (d : Byte) :
    addrByte d s = .next (holdWrite (endAddr (setBridge (addrBridge d s.br) s))) := by simp [addrByte, h]

/-- A payload byte before the last (R187). -/
theorem payloadByte_more {s : State} (h : s.br.cursor < 511) (d : Byte) :
    payloadByte d s = .next (holdWrite (setBridge (payloadBridge d s.br) s)) := by simp only [payloadByte, h, if_true]

/-- The last payload byte starts the write (R187, R188). -/
theorem payloadByte_last {s : State} (h : s.br.cursor = 511) (d : Byte) :
    payloadByte d s = .next (holdWrite (issue .write s.br.lba (setBridge (payloadBridge d s.br) s))) := by
  simp [payloadByte, h]

/-- A data-port read in SENDING with bytes remaining (R196). -/
theorem sendingCycle_eq {s : State} {b : Byte} (h : s.br.buf.bytes[s.br.cursor]? = some b) (hr : 1 ≤ s.br.remaining) :
    sendingCycle s = .next (drive b (setBridge (sentBridge s.br) s)) := by
  unfold sendingCycle
  rw [h]
  simp only
  rw [if_neg (by omega)]

/-- What a mount or a removal leaves of the session and the coordinator when it resets them (R217, R218). -/
theorem dropSession_eq (status : Byte) (s : State) :
    dropSession status s = setCoord { s.co with inFlight := false, result := .none }
      (setBridge { failBridge s.br with status := status } s) := rfl

/-! ## The event of a step -/

/-- All that `pickEvent` can do: it takes one event out of the offered list and keeps the others in their order;
every event before the taken one ranks below it, and none after it ranks above it (R59, R235). -/
theorem pickEvent_split (e : Event) (es : List Event) :
    ∃ before after : List Event, e :: es = before ++ (pickEvent e es).1 :: after ∧ (pickEvent e es).2 = before ++ after ∧
      (∀ g ∈ before, eventRank (pickEvent e es).1 < eventRank g) ∧
      ∀ g ∈ after, eventRank (pickEvent e es).1 ≤ eventRank g := by
  induction es generalizing e with
  | nil => exact ⟨[], [], rfl, rfl, by simp, by simp⟩
  | cons f fs ih =>
    obtain ⟨before, after, hl, hr, hb, ha⟩ := ih f
    unfold pickEvent
    split
    · rename_i hlt
      exact ⟨e :: before, after, congrArg (e :: ·) hl, congrArg (e :: ·) hr, List.forall_mem_cons.2 ⟨hlt, hb⟩, ha⟩
    · rename_i hge
      refine ⟨[], f :: fs, rfl, rfl, by simp, fun g hg => ?_⟩
      rw [hl] at hg
      rcases List.mem_append.1 hg with h | h
      · exact (Nat.not_lt.1 hge).trans (hb g h).le
      · rcases List.mem_cons.1 h with rfl | h
        · exact Nat.not_lt.1 hge
        · exact (Nat.not_lt.1 hge).trans (ha g h)

end Sys2Proof.Machine
end

