-- ==== Sys2Proof/Laws/Exec.lean ====
section
/-! SUPPORT. What a row of the opcode table can do: every next state is one of seven shapes. -/

namespace Sys2Proof.Machine

/-- The seven shapes of a row's next state. -/
inductive RowShape (s t : State) : Prop where
  | same (h : t = s)
  | drawn (h : t = nextDraw s)
  | driven (b : Byte) (h : t = drive b s)
  | drawnDriven (b : Byte) (h : t = drive b (nextDraw s))
  | switched (r : Fin 6) (v : BankReg) (h : t = holdWrite (setBank r v s))
  | bridged (br : Bridge) (co : Coord) (h : t = holdWrite (setBridge br (setCoord co s)))
  | sent (b : Byte) (br : Bridge) (h : t = drive b (setBridge br s))

theorem serveRead_shape {r : ReadResult} {s t : State} (h : serveRead r s = .next t) : RowShape s t := by
  rcases serveRead_frame h with h | h | ⟨b, h⟩ | ⟨b, h⟩
  · exact .same h
  · exact .drawn h
  · exact .driven b h
  · exact .drawnDriven b h

theorem switchCycle_shape {w : Nat} {r : Fin 6} {lane : Lane} {d : Byte} {s t : State}
    (h : switchCycle w r lane d s = .next t) : RowShape s t := .switched _ _ (Host.Outcome.next.inj h).symm

theorem tableCycle_shape {u : List SwitchEntry} {a : Addr} {d : Byte} {s t : State}
    (h : tableCycle u a d s = .next t) : RowShape s t := by
  unfold tableCycle at h
  split at h
  · exact switchCycle_shape h
  · exact .same (Host.Outcome.next.inj h).symm

/-- An `Issue` replaces the session and the coordinator, nothing else (R182, R211). -/
theorem issue_frame (kind : Dir) (lba : U32) (s : State) :
    ∃ br co, issue kind lba s = setBridge br (setCoord co s) := by
  by_cases h : Accepts s lba
  · rw [issue_accepted h]
    exact ⟨_, _, rfl⟩
  · rw [issue_rejected h]
    exact ⟨_, s.co, rfl⟩

theorem commandCycle_shape {d : Byte} {body : Bool → Dir → State → State} {s t : State}
    (hb : ∀ v dir u, ∃ br co, body v dir u = setBridge br (setCoord co u)) (h : commandCycle d body s = .next t) :
    RowShape s t := by
  unfold commandCycle at h
  split at h
  · exact .bridged s.br s.co (Host.Outcome.next.inj h).symm
  · obtain ⟨br, co, e⟩ := hb s.br.seqValid s.br.seqDir (setBridge (takeCommand d s.br) s)
    rw [e] at h
    exact .bridged br co (Host.Outcome.next.inj h).symm

theorem dataWriteCycle_shape {d : Byte} {s t : State} (h : dataWriteCycle d s = .next t) : RowShape s t := by
  unfold dataWriteCycle at h
  split at h
  · unfold addrByte at h
    split at h
    · exact .bridged _ s.co (Host.Outcome.next.inj h).symm
    · split at h
      · unfold endAddr at h
        split at h
        · obtain ⟨br, co, e⟩ := issue_frame .read (setBridge (addrBridge d s.br) s).br.lba (setBridge (addrBridge d s.br) s)
          rw [e] at h
          exact .bridged br co (Host.Outcome.next.inj h).symm
        · exact .bridged _ s.co (Host.Outcome.next.inj h).symm
      · cases h
  · unfold payloadByte at h
    split at h
    · exact .bridged _ s.co (Host.Outcome.next.inj h).symm
    · split at h
      · obtain ⟨br, co, e⟩ := issue_frame .write s.br.lba (setBridge (payloadBridge d s.br) s)
        rw [e] at h
        exact .bridged br co (Host.Outcome.next.inj h).symm
      · cases h
  all_goals exact .bridged s.br s.co (Host.Outcome.next.inj h).symm

theorem sendingCycle_shape {s t : State} (h : sendingCycle s = .next t) : RowShape s t := by
  unfold sendingCycle at h
  split at h
  · split at h
    · cases h
    · exact .sent _ _ (Host.Outcome.next.inj h).symm
  · cases h

/-- Every row that answers a next state has one of the seven shapes. -/
theorem exec_shape {i : Instr} {s t : State} (h : exec i s = .next t) : RowShape s t := by
  cases i <;> simp only [exec, flatCycle, segCycle,
    execNoise, execNoCycle, execUnselectedRd, execUnselectedWr, execMrFlat16, execMrFlat32Lo,
    execMrFlat32Hi, execMrLinear0Part0, execMrLinear0Part1, execMrLinear0Part2, execMrSccBank0,
    execMrSccBank1, execMrSccBank2, execMrSccBank3, execMrKonamiBank0, execMrKonamiBank1,
    execMrKonamiBank2, execMrKonamiBank3, execMrAscii8Bank0, execMrAscii8Bank1, execMrAscii8Bank2,
    execMrAscii8Bank3, execMrAscii16Bank0, execMrAscii16Bank1, execMrNeo8Bank0, execMrNeo8Bank1,
    execMrNeo8Bank2, execMrNeo8Bank3, execMrNeo8Bank4, execMrNeo8Bank5, execMrNeo16Bank0,
    execMrNeo16Bank1, execMrNeo16Bank2, execMrSccSound, execMwSccBank0, execMwSccBank1, execMwSccBank2,
    execMwSccBank3, execMwKonamiBank1, execMwKonamiBank2, execMwKonamiBank3, execMwAscii8Bank0,
    execMwAscii8Bank1, execMwAscii8Bank2, execMwAscii8Bank3, execMwAscii16Bank0, execMwAscii16Bank1,
    execMwSccSound, execMwNeo8Switch, execMwNeo16Switch, execMwOther, execMemReadUnserved,
    execIwCtrlInit, execIwCtrlGetId, execIwCtrlGetCap, execIwCtrlReadBlock, execIwCtrlReadNext,
    execIwCtrlWriteBlock, execIwCtrlWriteNext, execIwCtrlUnrecognised, execIrCtrlStatus, execIwData,
    execIrDataSending, execIrDataOther, execIoOtherPort] at h
  case iwCtrlInit => exact commandCycle_shape (fun _ _ u => ⟨_, u.co, rfl⟩) h
  case iwCtrlGetId => exact commandCycle_shape (fun _ _ u => ⟨_, u.co, rfl⟩) h
  case iwCtrlReadBlock => exact commandCycle_shape (fun _ _ u => ⟨_, u.co, rfl⟩) h
  case iwCtrlWriteBlock => exact commandCycle_shape (fun _ _ u => ⟨_, u.co, rfl⟩) h
  case iwCtrlGetCap =>
    refine commandCycle_shape (fun _ _ u => ?_) h
    unfold cmdGetCap
    split
    · exact ⟨_, u.co, rfl⟩
    · exact ⟨_, u.co, rfl⟩
  case iwCtrlReadNext =>
    refine commandCycle_shape (fun _ _ u => ?_) h
    unfold cmdReadNext
    split
    · exact issue_frame _ _ _
    · exact ⟨_, u.co, rfl⟩
  case iwCtrlWriteNext =>
    refine commandCycle_shape (fun _ _ u => ?_) h
    unfold cmdWriteNext
    split
    · exact ⟨_, u.co, rfl⟩
    · exact ⟨_, u.co, rfl⟩
  all_goals first
    | exact serveRead_shape h
    | exact switchCycle_shape h
    | exact tableCycle_shape h
    | exact dataWriteCycle_shape h
    | exact sendingCycle_shape h
    | exact .same (Host.Outcome.next.inj h).symm
    | exact .driven _ (Host.Outcome.next.inj h).symm
    | exact .bridged _ _ (Host.Outcome.next.inj h).symm

end Sys2Proof.Machine
end

