-- ==== Sys2Proof/Laws/Memory.lean ====
section
/-! SUPPORT. The byte arrays: the canonical form is kept by every operation that makes one, what a read
of a staged array gives, and that two arrays in canonical form with equal bytes are equal. -/

namespace Sys2Proof.Machine

@[simp] theorem Memory.read_nil (k : Nat) : Memory.read [] k = Config.erased := rfl

theorem Memory.read_cons (a k : Nat) (b : Byte) (t : Memory) :
    Memory.read ((a, b) :: t) k = if a = k then b else Memory.read t k := rfl

theorem Memory.canonicalFrom_cons (lo a : Nat) (b : Byte) (t : Memory) :
    Memory.canonicalFrom lo ((a, b) :: t) = true ↔
      lo ≤ a ∧ b ≠ Config.erased ∧ Memory.canonicalFrom (a + 1) t = true := by
  simp [Memory.canonicalFrom, and_assoc]

/-- A canonical array stays canonical when its lower bound is lowered. -/
theorem Memory.canonicalFrom_mono {lo hi : Nat} (h : lo ≤ hi) {m : Memory}
    (hm : Memory.canonicalFrom hi m = true) : Memory.canonicalFrom lo m = true := by
  cases m with
  | nil => rfl
  | cons c t =>
    rw [Memory.canonicalFrom_cons] at hm ⊢
    exact ⟨h.trans hm.1, hm.2⟩

/-- Below its lower bound a canonical array reads as erased. -/
theorem Memory.read_below {lo k : Nat} (h : k < lo) {m : Memory} (hm : Memory.canonicalFrom lo m = true) :
    Memory.read m k = Config.erased := by
  induction m generalizing lo with
  | nil => rfl
  | cons c t ih =>
    rw [Memory.canonicalFrom_cons] at hm
    rw [Memory.read_cons, if_neg (by omega), ih (by omega) hm.2.2]

/-- A part of a canonical array is canonical at its new offsets. -/
theorem Memory.slice_canonical {lo : Nat} (m : Memory) (base len : Nat)
    (h : Memory.canonicalFrom lo m = true) : Memory.canonicalFrom (lo - base) (Memory.slice m base len) = true := by
  induction m generalizing lo with
  | nil => rfl
  | cons c t ih =>
    rw [Memory.canonicalFrom_cons] at h
    have ht := ih h.2.2
    unfold Memory.slice
    split
    · rw [Memory.canonicalFrom_cons]
      exact ⟨by omega, h.2.1, Memory.canonicalFrom_mono (by omega) ht⟩
    · exact Memory.canonicalFrom_mono (by omega) ht

/-- A part of an array lists offsets below its length only. -/
theorem Memory.slice_below (m : Memory) (base len : Nat) : Memory.below len (Memory.slice m base len) = true := by
  induction m with
  | nil => rfl
  | cons c t ih =>
    unfold Memory.slice
    simp only [Memory.below, List.all_eq_true, decide_eq_true_eq] at ih ⊢
    split
    · intro x hx
      rcases List.mem_cons.1 hx with rfl | hx
      · simp; omega
      · exact ih x hx
    · exact ih

/-- A canonical array below `n`, followed by one canonical from `n` on, is canonical. -/
theorem Memory.canonicalFrom_append {lo n : Nat} {m t : Memory} (hm : Memory.canonicalFrom lo m = true)
    (hb : Memory.below n m = true) (hl : lo ≤ n) (ht : Memory.canonicalFrom n t = true) :
    Memory.canonicalFrom lo (m ++ t) = true := by
  induction m generalizing lo with
  | nil => exact Memory.canonicalFrom_mono hl ht
  | cons c u ih =>
    rw [Memory.canonicalFrom_cons] at hm
    simp only [Memory.below, List.all_cons, Bool.and_eq_true, decide_eq_true_eq] at hb
    rw [List.cons_append, Memory.canonicalFrom_cons]
    exact ⟨hm.1, hm.2.1, ih hm.2.2 hb.2 (by omega)⟩

/-- The upper part of a canonical array is canonical from its lower end on. -/
theorem Memory.filter_canonical {lo : Nat} (m : Memory) (n : Nat) (h : Memory.canonicalFrom lo m = true) :
    Memory.canonicalFrom (max lo n) (m.filter fun c => n ≤ c.1) = true := by
  induction m generalizing lo with
  | nil => rfl
  | cons c t ih =>
    rw [Memory.canonicalFrom_cons] at h
    have ht := ih h.2.2
    rw [List.filter_cons]
    split
    · rename_i hc
      simp only [decide_eq_true_eq] at hc
      rw [Memory.canonicalFrom_cons]
      exact ⟨by omega, h.2.1, Memory.canonicalFrom_mono (by omega) ht⟩
    · exact Memory.canonicalFrom_mono (by omega) ht

/-- Staging keeps the canonical form (R256). -/
theorem Memory.stage_wf {dst src : Memory} (base len : Nat) (hd : Memory.wf dst = true) (hs : Memory.wf src = true) :
    Memory.wf (Memory.stage dst src base len) = true := by
  have h1 := Memory.slice_canonical src base len hs
  have h2 := Memory.filter_canonical dst len hd
  rw [Nat.zero_sub] at h1
  rw [Nat.zero_max] at h2
  exact Memory.canonicalFrom_append h1 (Memory.slice_below src base len) (Nat.zero_le _) h2

/-- Staging keeps the cache below its capacity (R24, R142). -/
theorem Memory.stage_below {dst src : Memory} {base len n : Nat} (hd : Memory.below n dst = true) (hl : len ≤ n) :
    Memory.below n (Memory.stage dst src base len) = true := by
  have h := Memory.slice_below src base len
  simp only [Memory.stage, Memory.below, List.all_eq_true, List.mem_append, decide_eq_true_eq] at hd h ⊢
  rintro x (hx | hx)
  · exact (h x hx).trans_le hl
  · exact hd x (List.mem_of_mem_filter hx)

/-- A read in a part of an array is the read of the array at the moved offset. -/
theorem Memory.read_slice (m : Memory) (base : Nat) {len k : Nat} (h : k < len) :
    Memory.read (Memory.slice m base len) k = Memory.read m (base + k) := by
  induction m with
  | nil => rfl
  | cons c t ih =>
    unfold Memory.slice
    rw [Memory.read_cons]
    by_cases hc : c.1 = base + k
    · rw [if_pos (by omega), Memory.read_cons, if_pos (by omega), if_pos hc]
    · rw [if_neg hc, ← ih]
      split
      · rw [Memory.read_cons, if_neg (by omega)]
      · rfl

/-- A read at or past the length of a part gives the erased byte. -/
theorem Memory.read_of_below {m : Memory} {n k : Nat} (h : Memory.below n m = true) (hk : n ≤ k) :
    Memory.read m k = Config.erased := by
  induction m with
  | nil => rfl
  | cons c t ih =>
    simp only [Memory.below, List.all_cons, Bool.and_eq_true, decide_eq_true_eq] at h
    rw [Memory.read_cons, if_neg (by omega), ih h.2]

/-- A read of two arrays one after the other. -/
theorem Memory.read_append (m t : Memory) (k : Nat) :
    Memory.read (m ++ t) k = if ∃ c ∈ m, c.1 = k then Memory.read m k else Memory.read t k := by
  induction m with
  | nil => simp
  | cons c u ih =>
    rw [List.cons_append, Memory.read_cons, Memory.read_cons]
    by_cases hc : c.1 = k
    · rw [if_pos hc, if_pos ⟨c, by simp, hc⟩, if_pos hc]
    · rw [if_neg hc, if_neg hc, ih]
      congr 1
      simp [hc]

/-- An offset that no cell lists reads as erased. -/
theorem Memory.read_unlisted {m : Memory} {k : Nat} (h : ∀ c ∈ m, c.1 ≠ k) : Memory.read m k = Config.erased := by
  induction m with
  | nil => rfl
  | cons c t ih =>
    rw [Memory.read_cons, if_neg (h c (by simp)), ih fun d hd => h d (List.mem_cons_of_mem _ hd)]

/-- Inside the staged length the staged cache reads as the source (R24, R256). -/
theorem Memory.read_stage_lt (dst src : Memory) (base : Nat) {len k : Nat} (h : k < len) :
    Memory.read (Memory.stage dst src base len) k = Memory.read src (base + k) := by
  rw [Memory.stage, Memory.read_append, ← Memory.read_slice src base h]
  split
  · rfl
  · rename_i hn
    rw [Memory.read_unlisted (m := Memory.slice src base len) fun c hc he => hn ⟨c, hc, he⟩, Memory.read_unlisted]
    intro c hc
    have := List.of_mem_filter hc
    simp only [decide_eq_true_eq] at this
    omega

/-- Past the staged length the cache keeps its bytes. -/
theorem Memory.read_stage_ge (dst src : Memory) (base : Nat) {len k : Nat} (h : len ≤ k) :
    Memory.read (Memory.stage dst src base len) k = Memory.read dst k := by
  have hb := Memory.slice_below src base len
  simp only [Memory.below, List.all_eq_true, decide_eq_true_eq] at hb
  rw [Memory.stage, Memory.read_append, if_neg (by rintro ⟨c, hc, he⟩; have := hb c hc; omega)]
  induction dst with
  | nil => rfl
  | cons c t ih =>
    rw [List.filter_cons]
    split
    · rw [Memory.read_cons, Memory.read_cons, ih]
    · rename_i hc
      simp only [decide_eq_true_eq] at hc
      rw [ih, Memory.read_cons, if_neg (by omega)]

/-- Two canonical arrays with the same bytes are the same data. -/
theorem Memory.eq_of_read {lo : Nat} {m t : Memory} (hm : Memory.canonicalFrom lo m = true)
    (ht : Memory.canonicalFrom lo t = true) (h : ∀ k, Memory.read m k = Memory.read t k) : m = t := by
  induction m generalizing lo t with
  | nil =>
    cases t with
    | nil => rfl
    | cons d u =>
      rw [Memory.canonicalFrom_cons] at ht
      have := h d.1
      rw [Memory.read_cons, if_pos rfl] at this
      exact absurd this.symm ht.2.1
  | cons c v ih =>
    rw [Memory.canonicalFrom_cons] at hm
    cases t with
    | nil =>
      have := h c.1
      rw [Memory.read_cons, if_pos rfl] at this
      exact absurd this hm.2.1
    | cons d u =>
      rw [Memory.canonicalFrom_cons] at ht
      have hcd : c.1 = d.1 := by
        rcases Nat.lt_trichotomy c.1 d.1 with hlt | heq | hgt
        · have := h c.1
          rw [Memory.read_cons, if_pos rfl, Memory.read_cons, if_neg (by omega),
            Memory.read_below (by omega) ht.2.2] at this
          exact absurd this hm.2.1
        · exact heq
        · have := h d.1
          rw [Memory.read_cons, if_neg (by omega), Memory.read_below (by omega) hm.2.2,
            Memory.read_cons, if_pos rfl] at this
          exact absurd this.symm ht.2.1
      have hb : c.2 = d.2 := by
        have := h c.1
        rwa [Memory.read_cons, if_pos rfl, Memory.read_cons, if_pos hcd.symm] at this
      have hvu : v = u := by
        refine ih hm.2.2 (hcd ▸ ht.2.2) fun k => ?_
        by_cases hk : c.1 < k
        · have := h k
          rwa [Memory.read_cons, if_neg (by omega), Memory.read_cons, if_neg (by omega)] at this
        · rw [Memory.read_below (by omega) hm.2.2, Memory.read_below (by omega) ht.2.2]
      rw [hvu, show c = d from Prod.ext hcd hb]

/-- The arrays of the machine after reset are in canonical form. -/
theorem reset_memories_wf : Memory.wf State.reset.cache = true ∧ Memory.wf State.reset.par.store = true := ⟨rfl, rfl⟩

/-- The BOOT step keeps the canonical form of the cache (R256). -/
theorem bootEvent_cache_wf (s : State) (hc : Memory.wf s.cache = true) (hs : Memory.wf s.par.store = true) :
    Memory.wf (bootEvent s).cache = true := by
  unfold bootEvent
  split
  · split
    · exact Memory.stage_wf _ _ hc hs
    · exact hc
  · exact hc
  · exact hc

end Sys2Proof.Machine
end

