-- ==== Sys2Proof/Laws/Sample.lean ====
section
/-! SUPPORT. The sample word and the pin levels: packing and unpacking, the class of each kind of encoded
sample, and the page and offset of an address. -/

namespace Sys2Proof

/-- The address field of a packed word. -/
theorem extract_addr (cv : BitVec 4) (a : Addr) (d : Byte) : (cv ++ a ++ d).extractLsb' 8 16 = a := by
  ext i hi
  simp only [BitVec.getElem_extractLsb', BitVec.getLsbD_append]
  simp [BitVec.getLsbD_eq_getElem hi]
  omega

/-- The data field of a packed word. -/
theorem extract_data (cv : BitVec 4) (a : Addr) (d : Byte) : (cv ++ a ++ d).extractLsb' 0 8 = d := by
  ext i hi
  simp only [BitVec.getElem_extractLsb', BitVec.getLsbD_append]
  simp [BitVec.getLsbD_eq_getElem hi]
  omega

/-- Unpacking a packed snapshot gives it back (R67). -/
@[simp] theorem ofWord_toWord (s : Snapshot) : Snapshot.ofWord s.toWord = s := by
  obtain ⟨slt, rd, wr, iorq, a, d⟩ := s
  simp only [Snapshot.ofWord, Snapshot.toWord, BitVec.getLsbD_append, BitVec.cast_eq, Snapshot.mk.injEq,
    extract_addr (BitVec.ofBool slt ++ BitVec.ofBool rd ++ BitVec.ofBool wr ++ BitVec.ofBool iorq),
    extract_data (BitVec.ofBool slt ++ BitVec.ofBool rd ++ BitVec.ofBool wr ++ BitVec.ofBool iorq)]
  simp

/-- Packing an unpacked word gives it back (R67). -/
@[simp] theorem toWord_ofWord (w : SampleWord) : (Snapshot.ofWord w).toWord = w := by
  apply BitVec.eq_of_getLsbD_eq
  intro i hi
  simp only [Snapshot.ofWord, Snapshot.toWord, BitVec.getLsbD_cast, BitVec.getLsbD_append,
    BitVec.getLsbD_extractLsb', BitVec.getLsbD_ofBool]
  split_ifs <;> simp_all
  all_goals try (congr 1; omega)
  all_goals have : i = 24 ∨ i = 25 ∨ i = 26 ∨ i = 27 := by omega
  all_goals rcases this with rfl | rfl | rfl | rfl <;> simp_all

/-- The pins that carry a logical word give it back (R68, R100). -/
@[simp] theorem sampleBus_pinsOf (p : Params) (w : SampleWord) :
    Machine.sampleBus p (Machine.pinsOf p w) = Snapshot.ofWord w := by
  simp [Machine.sampleBus, Machine.pinsOf]

/-- A sample with SLT and RD active and IORQ inactive is decoded as a memory read (R69). -/
theorem decode_readAt (c : Ctx) (a : Nat) : decode c (readAt a) = decodeMemRead c (BitVec.ofNat 16 a) := by
  simp [decode, readAt, classify]

/-- A sample with SLT and WR active and IORQ inactive is decoded as a memory write (R69). -/
theorem decode_writeAt (c : Ctx) (a : Nat) (d : Byte) :
    decode c (writeAt a d) = decodeMemWrite c (BitVec.ofNat 16 a) d := by
  simp [decode, writeAt, classify]

/-- An encoded port read is decoded as an I/O read in its own context (R69). -/
theorem decode_portRead (c : Ctx) (p : Port) : decode c (portRead c p) = decodeIoRead c (p.setWidth 16) := by
  cases h : c.ioNeedsSlot <;> simp [decode, portRead, classify, h]

/-- An encoded port write is decoded as an I/O write in its own context (R69). -/
theorem decode_portWrite (c : Ctx) (p : Port) (d : Byte) :
    decode c (portWrite c p d) = decodeIoWrite c (p.setWidth 16) d := by
  cases h : c.ioNeedsSlot <;> simp [decode, portWrite, classify, h]

/-- The port of an address whose low byte is the port (R70). -/
@[simp] theorem portOf_setWidth (p : Port) : portOf (p.setWidth 16) = p := by
  apply BitVec.eq_of_toNat_eq
  simp [portOf]

/-- The page of an address made of a page number and an offset. -/
theorem addr_page {k : Nat} (p : Nat) (off : BitVec k) (h : (p + 1) * 2 ^ k ≤ 65536) :
    (BitVec.ofNat 16 (p * 2 ^ k + off.toNat)).toNat / 2 ^ k = p := by
  have hlt := off.isLt
  have hb : p * 2 ^ k + off.toNat < 2 ^ 16 := by
    have : (p + 1) * 2 ^ k = p * 2 ^ k + 2 ^ k := by ring
    omega
  rw [BitVec.toNat_ofNat, Nat.mod_eq_of_lt hb, Nat.mul_comm, Nat.mul_add_div (Nat.two_pow_pos k),
    Nat.div_eq_of_lt hlt, Nat.add_zero]

/-- The offset of an address made of a page number and an offset. -/
theorem addr_offset {k : Nat} (p : Nat) (off : BitVec k) (h : (p + 1) * 2 ^ k ≤ 65536) :
    (BitVec.ofNat 16 (p * 2 ^ k + off.toNat)).setWidth k = off := by
  have hlt := off.isLt
  have hb : p * 2 ^ k + off.toNat < 2 ^ 16 := by
    have : (p + 1) * 2 ^ k = p * 2 ^ k + 2 ^ k := by ring
    omega
  apply BitVec.eq_of_toNat_eq
  rw [BitVec.toNat_setWidth, BitVec.toNat_ofNat, Nat.mod_eq_of_lt hb, Nat.mul_comm, Nat.mul_add_mod,
    Nat.mod_eq_of_lt hlt]

end Sys2Proof
end

