-- ==== Sys2Proof/Laws/PerInstr.lean ====
section
/-! SUPPORT. Decoding an encoded instruction gives it back, one lemma per row of the opcode table. -/

namespace Sys2Proof.Laws

open Sys2Proof.Machine

/-- In every context whose two ports differ, a well-formed instruction is what its encoding decodes to. -/
def RoundTrip.Statement (i : Instr) : Prop :=
  ∀ c : Ctx, c.ctrlPort ≠ c.dataPort → WellFormed c i = true → decode c (Snapshot.ofWord (encode c i)) = i

/-- A memory write in no switch range and outside the sound region is the row `MW.other` (R116, R117). -/
theorem decodeMemWrite_other (c : Ctx) (a : Addr) (d : Byte) (h : WellFormed c (.mwOther a d) = true) :
    decodeMemWrite c a d = .mwOther a d := by
  simp only [WellFormed, Bool.and_eq_true, Bool.not_eq_true', Bool.and_eq_false_iff] at h
  obtain ⟨h1, h2⟩ := h
  cases hs : c.scheme <;> simp_all [decodeMemWrite, switchTable, findEntry]
  case scc =>
    rw [if_neg (by rintro ⟨h3, h4⟩; simp_all)]
    split <;> first | rfl | omega
  all_goals split <;> first | rfl | omega

/-- A memory read outside the windows is the row `MEM_READ.unserved` (R114). -/
theorem decodeMemRead_unserved (c : Ctx) (a : Addr) (h : WellFormed c (.memReadUnserved a) = true) :
    decodeMemRead c a = .memReadUnserved a := by
  simp only [WellFormed, Bool.not_eq_true'] at h
  cases hs : c.scheme <;> simp [hs, inWindows, flatWindow, geometry] at h <;> simp only [decodeMemRead, hs]
  case scc =>
    rw [if_neg (by simp only [inSoundRegion, Bool.and_eq_true, decide_eq_true_eq]; omega)]
    split <;> first | rfl | omega
  all_goals split <;> first | rfl | omega

/-- A byte that is none of the seven commands is the row `IW.CTRL.unrecognised` (R73). -/
theorem decodeCommand_unrecognised (d : Byte) (h : recognised d = false) : decodeCommand d = .iwCtrlUnrecognised d := by
  revert h; revert d; decide

theorem RoundTrip.noise : RoundTrip.Statement (.noise) := by
  intro c _ _
  simp [encode, encodeSnapshot, decode, classify]

theorem RoundTrip.noCycle : RoundTrip.Statement (.noCycle) := by
  intro c _ _
  simp [encode, encodeSnapshot, decode, classify]

theorem RoundTrip.unselectedRd : RoundTrip.Statement (.unselectedRd) := by
  intro c _ _
  simp [encode, encodeSnapshot, decode, classify]

theorem RoundTrip.unselectedWr : RoundTrip.Statement (.unselectedWr) := by
  intro c _ _
  simp [encode, encodeSnapshot, decode, classify]

theorem RoundTrip.mrFlat16 (off : BitVec 14) : RoundTrip.Statement (.mrFlat16 off) := by
  intro c _ h
  have hp := addr_page 1 off (by norm_num)
  have ho := addr_offset 1 off (by norm_num)
  norm_num at hp ho
  simp only [WellFormed, beq_iff_eq] at h
  simp [encode, encodeSnapshot, decode_readAt, decodeMemRead, h, hp, ho]

theorem RoundTrip.mrFlat32Lo (off : BitVec 14) : RoundTrip.Statement (.mrFlat32Lo off) := by
  intro c _ h
  have hp := addr_page 1 off (by norm_num)
  have ho := addr_offset 1 off (by norm_num)
  norm_num at hp ho
  simp only [WellFormed, beq_iff_eq] at h
  simp [encode, encodeSnapshot, decode_readAt, decodeMemRead, h, hp, ho]

theorem RoundTrip.mrFlat32Hi (off : BitVec 14) : RoundTrip.Statement (.mrFlat32Hi off) := by
  intro c _ h
  have hp := addr_page 2 off (by norm_num)
  have ho := addr_offset 2 off (by norm_num)
  norm_num at hp ho
  simp only [WellFormed, beq_iff_eq] at h
  simp [encode, encodeSnapshot, decode_readAt, decodeMemRead, h, hp, ho]

theorem RoundTrip.mrLinear0Part0 (off : BitVec 14) : RoundTrip.Statement (.mrLinear0Part0 off) := by
  intro c _ h
  have hlt := off.isLt
  have hm : off.toNat % 65536 = off.toNat := by omega
  have hp : off.toNat / 16384 = 0 := by omega
  simp only [WellFormed, beq_iff_eq] at h
  simp [encode, encodeSnapshot, decode_readAt, decodeMemRead, h, hm, hp]

theorem RoundTrip.mrLinear0Part1 (off : BitVec 14) : RoundTrip.Statement (.mrLinear0Part1 off) := by
  intro c _ h
  have hp := addr_page 1 off (by norm_num)
  have ho := addr_offset 1 off (by norm_num)
  norm_num at hp ho
  simp only [WellFormed, beq_iff_eq] at h
  simp [encode, encodeSnapshot, decode_readAt, decodeMemRead, h, hp, ho]

theorem RoundTrip.mrLinear0Part2 (off : BitVec 14) : RoundTrip.Statement (.mrLinear0Part2 off) := by
  intro c _ h
  have hp := addr_page 2 off (by norm_num)
  have ho := addr_offset 2 off (by norm_num)
  norm_num at hp ho
  simp only [WellFormed, beq_iff_eq] at h
  simp [encode, encodeSnapshot, decode_readAt, decodeMemRead, h, hp, ho]

theorem RoundTrip.mrSccBank0 (off : BitVec 13) : RoundTrip.Statement (.mrSccBank0 off) := by
  intro c _ h
  have hs : inSoundRegion (BitVec.ofNat 16 (0x4000 + off.toNat)) = false := by
    have := off.isLt
    simp [inSoundRegion]
    omega
  have hp := addr_page 2 off (by norm_num)
  have ho := addr_offset 2 off (by norm_num)
  norm_num at hp ho
  simp only [WellFormed, beq_iff_eq] at h
  simp [encode, encodeSnapshot, decode_readAt, decodeMemRead, h, hp, ho, hs]

theorem RoundTrip.mrSccBank1 (off : BitVec 13) : RoundTrip.Statement (.mrSccBank1 off) := by
  intro c _ h
  have hs : inSoundRegion (BitVec.ofNat 16 (0x6000 + off.toNat)) = false := by
    have := off.isLt
    simp [inSoundRegion]
    omega
  have hp := addr_page 3 off (by norm_num)
  have ho := addr_offset 3 off (by norm_num)
  norm_num at hp ho
  simp only [WellFormed, beq_iff_eq] at h
  simp [encode, encodeSnapshot, decode_readAt, decodeMemRead, h, hp, ho, hs]

theorem RoundTrip.mrSccBank2 (off : BitVec 13) : RoundTrip.Statement (.mrSccBank2 off) := by
  intro c _ h
  have hs : inSoundRegion (BitVec.ofNat 16 (0x8000 + off.toNat)) = soundOffset off := by
    have := off.isLt
    rw [Bool.eq_iff_iff]
    simp [inSoundRegion, soundOffset]
    omega
  have hp := addr_page 4 off (by norm_num)
  have ho := addr_offset 4 off (by norm_num)
  norm_num at hp ho
  simp only [WellFormed, beq_iff_eq, Bool.and_eq_true, Bool.not_eq_true', Bool.and_eq_false_iff] at h
  rcases h with ⟨h, h2 | h2⟩ <;> simp [encode, encodeSnapshot, decode_readAt, decodeMemRead, h, hp, ho, hs, h2]

theorem RoundTrip.mrSccBank3 (off : BitVec 13) : RoundTrip.Statement (.mrSccBank3 off) := by
  intro c _ h
  have hs : inSoundRegion (BitVec.ofNat 16 (0xA000 + off.toNat)) = false := by
    have := off.isLt
    simp [inSoundRegion]
    omega
  have hp := addr_page 5 off (by norm_num)
  have ho := addr_offset 5 off (by norm_num)
  norm_num at hp ho
  simp only [WellFormed, beq_iff_eq] at h
  simp [encode, encodeSnapshot, decode_readAt, decodeMemRead, h, hp, ho, hs]

theorem RoundTrip.mrKonamiBank0 (off : BitVec 13) : RoundTrip.Statement (.mrKonamiBank0 off) := by
  intro c _ h
  have hp := addr_page 2 off (by norm_num)
  have ho := addr_offset 2 off (by norm_num)
  norm_num at hp ho
  simp only [WellFormed, beq_iff_eq] at h
  simp [encode, encodeSnapshot, decode_readAt, decodeMemRead, h, hp, ho]

theorem RoundTrip.mrKonamiBank1 (off : BitVec 13) : RoundTrip.Statement (.mrKonamiBank1 off) := by
  intro c _ h
  have hp := addr_page 3 off (by norm_num)
  have ho := addr_offset 3 off (by norm_num)
  norm_num at hp ho
  simp only [WellFormed, beq_iff_eq] at h
  simp [encode, encodeSnapshot, decode_readAt, decodeMemRead, h, hp, ho]

theorem RoundTrip.mrKonamiBank2 (off : BitVec 13) : RoundTrip.Statement (.mrKonamiBank2 off) := by
  intro c _ h
  have hp := addr_page 4 off (by norm_num)
  have ho := addr_offset 4 off (by norm_num)
  norm_num at hp ho
  simp only [WellFormed, beq_iff_eq] at h
  simp [encode, encodeSnapshot, decode_readAt, decodeMemRead, h, hp, ho]

theorem RoundTrip.mrKonamiBank3 (off : BitVec 13) : RoundTrip.Statement (.mrKonamiBank3 off) := by
  intro c _ h
  have hp := addr_page 5 off (by norm_num)
  have ho := addr_offset 5 off (by norm_num)
  norm_num at hp ho
  simp only [WellFormed, beq_iff_eq] at h
  simp [encode, encodeSnapshot, decode_readAt, decodeMemRead, h, hp, ho]

theorem RoundTrip.mrAscii8Bank0 (off : BitVec 13) : RoundTrip.Statement (.mrAscii8Bank0 off) := by
  intro c _ h
  have hp := addr_page 2 off (by norm_num)
  have ho := addr_offset 2 off (by norm_num)
  norm_num at hp ho
  simp only [WellFormed, beq_iff_eq] at h
  simp [encode, encodeSnapshot, decode_readAt, decodeMemRead, h, hp, ho]

theorem RoundTrip.mrAscii8Bank1 (off : BitVec 13) : RoundTrip.Statement (.mrAscii8Bank1 off) := by
  intro c _ h
  have hp := addr_page 3 off (by norm_num)
  have ho := addr_offset 3 off (by norm_num)
  norm_num at hp ho
  simp only [WellFormed, beq_iff_eq] at h
  simp [encode, encodeSnapshot, decode_readAt, decodeMemRead, h, hp, ho]

theorem RoundTrip.mrAscii8Bank2 (off : BitVec 13) : RoundTrip.Statement (.mrAscii8Bank2 off) := by
  intro c _ h
  have hp := addr_page 4 off (by norm_num)
  have ho := addr_offset 4 off (by norm_num)
  norm_num at hp ho
  simp only [WellFormed, beq_iff_eq] at h
  simp [encode, encodeSnapshot, decode_readAt, decodeMemRead, h, hp, ho]

theorem RoundTrip.mrAscii8Bank3 (off : BitVec 13) : RoundTrip.Statement (.mrAscii8Bank3 off) := by
  intro c _ h
  have hp := addr_page 5 off (by norm_num)
  have ho := addr_offset 5 off (by norm_num)
  norm_num at hp ho
  simp only [WellFormed, beq_iff_eq] at h
  simp [encode, encodeSnapshot, decode_readAt, decodeMemRead, h, hp, ho]

theorem RoundTrip.mrAscii16Bank0 (off : BitVec 14) : RoundTrip.Statement (.mrAscii16Bank0 off) := by
  intro c _ h
  have hp := addr_page 1 off (by norm_num)
  have ho := addr_offset 1 off (by norm_num)
  norm_num at hp ho
  simp only [WellFormed, beq_iff_eq] at h
  simp [encode, encodeSnapshot, decode_readAt, decodeMemRead, h, hp, ho]

theorem RoundTrip.mrAscii16Bank1 (off : BitVec 14) : RoundTrip.Statement (.mrAscii16Bank1 off) := by
  intro c _ h
  have hp := addr_page 2 off (by norm_num)
  have ho := addr_offset 2 off (by norm_num)
  norm_num at hp ho
  simp only [WellFormed, beq_iff_eq] at h
  simp [encode, encodeSnapshot, decode_readAt, decodeMemRead, h, hp, ho]

theorem RoundTrip.mrNeo8Bank0 (off : BitVec 13) : RoundTrip.Statement (.mrNeo8Bank0 off) := by
  intro c _ h
  have hlt := off.isLt
  have hm : off.toNat % 65536 = off.toNat := by omega
  have hp : off.toNat / 8192 = 0 := by omega
  simp only [WellFormed, beq_iff_eq] at h
  simp [encode, encodeSnapshot, decode_readAt, decodeMemRead, h, hm, hp]

theorem RoundTrip.mrNeo8Bank1 (off : BitVec 13) : RoundTrip.Statement (.mrNeo8Bank1 off) := by
  intro c _ h
  have hp := addr_page 1 off (by norm_num)
  have ho := addr_offset 1 off (by norm_num)
  norm_num at hp ho
  simp only [WellFormed, beq_iff_eq] at h
  simp [encode, encodeSnapshot, decode_readAt, decodeMemRead, h, hp, ho]

theorem RoundTrip.mrNeo8Bank2 (off : BitVec 13) : RoundTrip.Statement (.mrNeo8Bank2 off) := by
  intro c _ h
  have hp := addr_page 2 off (by norm_num)
  have ho := addr_offset 2 off (by norm_num)
  norm_num at hp ho
  simp only [WellFormed, beq_iff_eq] at h
  simp [encode, encodeSnapshot, decode_readAt, decodeMemRead, h, hp, ho]

theorem RoundTrip.mrNeo8Bank3 (off : BitVec 13) : RoundTrip.Statement (.mrNeo8Bank3 off) := by
  intro c _ h
  have hp := addr_page 3 off (by norm_num)
  have ho := addr_offset 3 off (by norm_num)
  norm_num at hp ho
  simp only [WellFormed, beq_iff_eq] at h
  simp [encode, encodeSnapshot, decode_readAt, decodeMemRead, h, hp, ho]

theorem RoundTrip.mrNeo8Bank4 (off : BitVec 13) : RoundTrip.Statement (.mrNeo8Bank4 off) := by
  intro c _ h
  have hp := addr_page 4 off (by norm_num)
  have ho := addr_offset 4 off (by norm_num)
  norm_num at hp ho
  simp only [WellFormed, beq_iff_eq] at h
  simp [encode, encodeSnapshot, decode_readAt, decodeMemRead, h, hp, ho]

theorem RoundTrip.mrNeo8Bank5 (off : BitVec 13) : RoundTrip.Statement (.mrNeo8Bank5 off) := by
  intro c _ h
  have hp := addr_page 5 off (by norm_num)
  have ho := addr_offset 5 off (by norm_num)
  norm_num at hp ho
  simp only [WellFormed, beq_iff_eq] at h
  simp [encode, encodeSnapshot, decode_readAt, decodeMemRead, h, hp, ho]

theorem RoundTrip.mrNeo16Bank0 (off : BitVec 14) : RoundTrip.Statement (.mrNeo16Bank0 off) := by
  intro c _ h
  have hlt := off.isLt
  have hm : off.toNat % 65536 = off.toNat := by omega
  have hp : off.toNat / 16384 = 0 := by omega
  simp only [WellFormed, beq_iff_eq] at h
  simp [encode, encodeSnapshot, decode_readAt, decodeMemRead, h, hm, hp]

theorem RoundTrip.mrNeo16Bank1 (off : BitVec 14) : RoundTrip.Statement (.mrNeo16Bank1 off) := by
  intro c _ h
  have hp := addr_page 1 off (by norm_num)
  have ho := addr_offset 1 off (by norm_num)
  norm_num at hp ho
  simp only [WellFormed, beq_iff_eq] at h
  simp [encode, encodeSnapshot, decode_readAt, decodeMemRead, h, hp, ho]

theorem RoundTrip.mrNeo16Bank2 (off : BitVec 14) : RoundTrip.Statement (.mrNeo16Bank2 off) := by
  intro c _ h
  have hp := addr_page 2 off (by norm_num)
  have ho := addr_offset 2 off (by norm_num)
  norm_num at hp ho
  simp only [WellFormed, beq_iff_eq] at h
  simp [encode, encodeSnapshot, decode_readAt, decodeMemRead, h, hp, ho]

theorem RoundTrip.mrSccSound (off : BitVec 11) : RoundTrip.Statement (.mrSccSound off) := by
  intro c _ h
  have ho := addr_offset 19 off (by norm_num)
  have hs : inSoundRegion (BitVec.ofNat 16 (0x9800 + off.toNat)) = true := by
    have := off.isLt
    simp [inSoundRegion]
    omega
  norm_num at ho
  simp only [WellFormed, beq_iff_eq, Bool.and_eq_true] at h
  simp [encode, encodeSnapshot, decode_readAt, decodeMemRead, h, hs, ho]

theorem RoundTrip.mwSccBank0 (off : BitVec 11) (d : Byte) : RoundTrip.Statement (.mwSccBank0 off d) := by
  intro c _ h
  have hp := addr_page 10 off (by norm_num)
  have ho := addr_offset 10 off (by norm_num)
  have hs : inSoundRegion (BitVec.ofNat 16 (0x5000 + off.toNat)) = false := by
    have := off.isLt
    simp [inSoundRegion]
    omega
  norm_num at hp ho
  simp only [WellFormed, beq_iff_eq] at h
  simp [encode, encodeSnapshot, decode_writeAt, decodeMemWrite, h, hp, ho, hs]

theorem RoundTrip.mwSccBank1 (off : BitVec 11) (d : Byte) : RoundTrip.Statement (.mwSccBank1 off d) := by
  intro c _ h
  have hp := addr_page 14 off (by norm_num)
  have ho := addr_offset 14 off (by norm_num)
  have hs : inSoundRegion (BitVec.ofNat 16 (0x7000 + off.toNat)) = false := by
    have := off.isLt
    simp [inSoundRegion]
    omega
  norm_num at hp ho
  simp only [WellFormed, beq_iff_eq] at h
  simp [encode, encodeSnapshot, decode_writeAt, decodeMemWrite, h, hp, ho, hs]

theorem RoundTrip.mwSccBank2 (off : BitVec 11) (d : Byte) : RoundTrip.Statement (.mwSccBank2 off d) := by
  intro c _ h
  have hp := addr_page 18 off (by norm_num)
  have ho := addr_offset 18 off (by norm_num)
  have hs : inSoundRegion (BitVec.ofNat 16 (0x9000 + off.toNat)) = false := by
    have := off.isLt
    simp [inSoundRegion]
    omega
  norm_num at hp ho
  simp only [WellFormed, beq_iff_eq] at h
  simp [encode, encodeSnapshot, decode_writeAt, decodeMemWrite, h, hp, ho, hs]

theorem RoundTrip.mwSccBank3 (off : BitVec 11) (d : Byte) : RoundTrip.Statement (.mwSccBank3 off d) := by
  intro c _ h
  have hp := addr_page 22 off (by norm_num)
  have ho := addr_offset 22 off (by norm_num)
  have hs : inSoundRegion (BitVec.ofNat 16 (0xB000 + off.toNat)) = false := by
    have := off.isLt
    simp [inSoundRegion]
    omega
  norm_num at hp ho
  simp only [WellFormed, beq_iff_eq] at h
  simp [encode, encodeSnapshot, decode_writeAt, decodeMemWrite, h, hp, ho, hs]

theorem RoundTrip.mwKonamiBank1 (off : BitVec 13) (d : Byte) : RoundTrip.Statement (.mwKonamiBank1 off d) := by
  intro c _ h
  have hp := addr_page 3 off (by norm_num)
  have ho := addr_offset 3 off (by norm_num)
  norm_num at hp ho
  simp only [WellFormed, beq_iff_eq] at h
  simp [encode, encodeSnapshot, decode_writeAt, decodeMemWrite, h, hp, ho]

theorem RoundTrip.mwKonamiBank2 (off : BitVec 13) (d : Byte) : RoundTrip.Statement (.mwKonamiBank2 off d) := by
  intro c _ h
  have hp := addr_page 4 off (by norm_num)
  have ho := addr_offset 4 off (by norm_num)
  norm_num at hp ho
  simp only [WellFormed, beq_iff_eq] at h
  simp [encode, encodeSnapshot, decode_writeAt, decodeMemWrite, h, hp, ho]

theorem RoundTrip.mwKonamiBank3 (off : BitVec 13) (d : Byte) : RoundTrip.Statement (.mwKonamiBank3 off d) := by
  intro c _ h
  have hp := addr_page 5 off (by norm_num)
  have ho := addr_offset 5 off (by norm_num)
  norm_num at hp ho
  simp only [WellFormed, beq_iff_eq] at h
  simp [encode, encodeSnapshot, decode_writeAt, decodeMemWrite, h, hp, ho]

theorem RoundTrip.mwAscii8Bank0 (off : BitVec 11) (d : Byte) : RoundTrip.Statement (.mwAscii8Bank0 off d) := by
  intro c _ h
  have hp := addr_page 12 off (by norm_num)
  have ho := addr_offset 12 off (by norm_num)
  norm_num at hp ho
  simp only [WellFormed, beq_iff_eq] at h
  simp [encode, encodeSnapshot, decode_writeAt, decodeMemWrite, h, hp, ho]

theorem RoundTrip.mwAscii8Bank1 (off : BitVec 11) (d : Byte) : RoundTrip.Statement (.mwAscii8Bank1 off d) := by
  intro c _ h
  have hp := addr_page 13 off (by norm_num)
  have ho := addr_offset 13 off (by norm_num)
  norm_num at hp ho
  simp only [WellFormed, beq_iff_eq] at h
  simp [encode, encodeSnapshot, decode_writeAt, decodeMemWrite, h, hp, ho]

theorem RoundTrip.mwAscii8Bank2 (off : BitVec 11) (d : Byte) : RoundTrip.Statement (.mwAscii8Bank2 off d) := by
  intro c _ h
  have hp := addr_page 14 off (by norm_num)
  have ho := addr_offset 14 off (by norm_num)
  norm_num at hp ho
  simp only [WellFormed, beq_iff_eq] at h
  simp [encode, encodeSnapshot, decode_writeAt, decodeMemWrite, h, hp, ho]

theorem RoundTrip.mwAscii8Bank3 (off : BitVec 11) (d : Byte) : RoundTrip.Statement (.mwAscii8Bank3 off d) := by
  intro c _ h
  have hp := addr_page 15 off (by norm_num)
  have ho := addr_offset 15 off (by norm_num)
  norm_num at hp ho
  simp only [WellFormed, beq_iff_eq] at h
  simp [encode, encodeSnapshot, decode_writeAt, decodeMemWrite, h, hp, ho]

theorem RoundTrip.mwAscii16Bank0 (off : BitVec 11) (d : Byte) : RoundTrip.Statement (.mwAscii16Bank0 off d) := by
  intro c _ h
  have hp := addr_page 12 off (by norm_num)
  have ho := addr_offset 12 off (by norm_num)
  norm_num at hp ho
  simp only [WellFormed, beq_iff_eq] at h
  simp [encode, encodeSnapshot, decode_writeAt, decodeMemWrite, h, hp, ho]

theorem RoundTrip.mwAscii16Bank1 (off : BitVec 11) (d : Byte) : RoundTrip.Statement (.mwAscii16Bank1 off d) := by
  intro c _ h
  have hp := addr_page 14 off (by norm_num)
  have ho := addr_offset 14 off (by norm_num)
  norm_num at hp ho
  simp only [WellFormed, beq_iff_eq] at h
  simp [encode, encodeSnapshot, decode_writeAt, decodeMemWrite, h, hp, ho]

theorem RoundTrip.mwSccSound (off : BitVec 11) (d : Byte) : RoundTrip.Statement (.mwSccSound off d) := by
  intro c _ h
  have ho := addr_offset 19 off (by norm_num)
  have hs : inSoundRegion (BitVec.ofNat 16 (0x9800 + off.toNat)) = true := by
    have := off.isLt
    simp [inSoundRegion]
    omega
  norm_num at ho
  simp only [WellFormed, beq_iff_eq, Bool.and_eq_true] at h
  simp [encode, encodeSnapshot, decode_writeAt, decodeMemWrite, h, hs, ho]

theorem RoundTrip.mwNeo8Switch (a : Addr) (d : Byte) : RoundTrip.Statement (.mwNeo8Switch a d) := by
  intro c _ h
  simp only [WellFormed, beq_iff_eq, Bool.and_eq_true] at h
  simp [encode, encodeSnapshot, decode_writeAt, decodeMemWrite, h]

theorem RoundTrip.mwNeo16Switch (a : Addr) (d : Byte) : RoundTrip.Statement (.mwNeo16Switch a d) := by
  intro c _ h
  simp only [WellFormed, beq_iff_eq, Bool.and_eq_true] at h
  simp [encode, encodeSnapshot, decode_writeAt, decodeMemWrite, h]

theorem RoundTrip.mwOther (a : Addr) (d : Byte) : RoundTrip.Statement (.mwOther a d) := by
  intro c _ h
  simp only [encode, encodeSnapshot, ofWord_toWord, decode_writeAt, BitVec.ofNat_toNat, BitVec.setWidth_eq]
  exact decodeMemWrite_other c a d h

theorem RoundTrip.memReadUnserved (a : Addr) : RoundTrip.Statement (.memReadUnserved a) := by
  intro c _ h
  simp only [encode, encodeSnapshot, ofWord_toWord, decode_readAt, BitVec.ofNat_toNat, BitVec.setWidth_eq]
  exact decodeMemRead_unserved c a h

theorem RoundTrip.iwCtrlInit : RoundTrip.Statement (.iwCtrlInit) := by
  intro c _ h
  simp only [WellFormed] at h
  simp [encode, encodeSnapshot, decode_portWrite, decodeIoWrite, decodeCommand, h]

theorem RoundTrip.iwCtrlGetId : RoundTrip.Statement (.iwCtrlGetId) := by
  intro c _ h
  simp only [WellFormed] at h
  simp [encode, encodeSnapshot, decode_portWrite, decodeIoWrite, decodeCommand, h]

theorem RoundTrip.iwCtrlGetCap : RoundTrip.Statement (.iwCtrlGetCap) := by
  intro c _ h
  simp only [WellFormed] at h
  simp [encode, encodeSnapshot, decode_portWrite, decodeIoWrite, decodeCommand, h]

theorem RoundTrip.iwCtrlReadBlock : RoundTrip.Statement (.iwCtrlReadBlock) := by
  intro c _ h
  simp only [WellFormed] at h
  simp [encode, encodeSnapshot, decode_portWrite, decodeIoWrite, decodeCommand, h]

theorem RoundTrip.iwCtrlReadNext : RoundTrip.Statement (.iwCtrlReadNext) := by
  intro c _ h
  simp only [WellFormed] at h
  simp [encode, encodeSnapshot, decode_portWrite, decodeIoWrite, decodeCommand, h]

theorem RoundTrip.iwCtrlWriteBlock : RoundTrip.Statement (.iwCtrlWriteBlock) := by
  intro c _ h
  simp only [WellFormed] at h
  simp [encode, encodeSnapshot, decode_portWrite, decodeIoWrite, decodeCommand, h]

theorem RoundTrip.iwCtrlWriteNext : RoundTrip.Statement (.iwCtrlWriteNext) := by
  intro c _ h
  simp only [WellFormed] at h
  simp [encode, encodeSnapshot, decode_portWrite, decodeIoWrite, decodeCommand, h]

theorem RoundTrip.iwCtrlUnrecognised (d : Byte) : RoundTrip.Statement (.iwCtrlUnrecognised d) := by
  intro c _ h
  simp only [WellFormed, Bool.and_eq_true, Bool.not_eq_true'] at h
  simp [encode, encodeSnapshot, decode_portWrite, decodeIoWrite, decodeCommand_unrecognised d h.2, h.1]

theorem RoundTrip.irCtrlStatus : RoundTrip.Statement (.irCtrlStatus) := by
  intro c _ h
  simp only [WellFormed] at h
  simp [encode, encodeSnapshot, decode_portRead, decodeIoRead, h]

theorem RoundTrip.iwData (d : Byte) : RoundTrip.Statement (.iwData d) := by
  intro c hne h
  simp only [WellFormed] at h
  simp [encode, encodeSnapshot, decode_portWrite, decodeIoWrite, h, hne.symm]

theorem RoundTrip.irDataSending : RoundTrip.Statement (.irDataSending) := by
  intro c hne h
  simp only [WellFormed, Bool.and_eq_true] at h
  simp [encode, encodeSnapshot, decode_portRead, decodeIoRead, h, hne.symm]

theorem RoundTrip.irDataOther : RoundTrip.Statement (.irDataOther) := by
  intro c hne h
  simp only [WellFormed, Bool.and_eq_true, Bool.not_eq_true'] at h
  simp [encode, encodeSnapshot, decode_portRead, decodeIoRead, h, hne.symm]

theorem RoundTrip.ioOtherPort (isWrite : Bool) (port : Port) : RoundTrip.Statement (.ioOtherPort isWrite port) := by
  intro c _ h
  simp only [WellFormed, Bool.or_eq_true, Bool.and_eq_true, Bool.not_eq_true', bne_iff_ne, ne_eq] at h
  cases isWrite <;> rcases h with h | h <;>
    simp [encode, encodeSnapshot, decode_portRead, decode_portWrite, decodeIoRead, decodeIoWrite, h]

end Sys2Proof.Laws
end

