-- ==== Sys2Proof/Tests/Slice0.lean ====
section
/-! SUPPORT. Small tests: words of the spec decoded, ill-formed rows refused, one step of every row on the
values of 95_test_vectors.md, and for every statement with hypotheses a state that meets them. -/

open Sys2Proof Sys2Proof.Machine

namespace Sys2Proof.Tests

/-! ## Words (the encodings of 30_encoding.md R67, R69 and the opcode table, written out) -/

/-- The hypothetical NEO8 table of V19. -/
def neo8Table : List SwitchEntry := [⟨0x5002, 0x5002, 1, .lo⟩, ⟨0x5003, 0x5003, 1, .hi⟩]

/-- A hypothetical NEO16 table. -/
def neo16Table : List SwitchEntry := [⟨0x5004, 0x5004, 2, .lo⟩]

/-- Words of R67 in their contexts. -/
theorem test_decode_classes :
    decode (exampleCtx .flat16 false) (Snapshot.ofWord 0x6400000) = .noise ∧
    decode (exampleCtx .flat16 false) (Snapshot.ofWord 0xF600000) = .noise ∧
    decode (exampleCtx .flat16 false) (Snapshot.ofWord 0x9600000) = .noCycle ∧
    decode (exampleCtx .flat16 false) (Snapshot.ofWord 0x4400000) = .unselectedRd ∧
    decode (exampleCtx .flat16 false) (Snapshot.ofWord 0x2400000) = .unselectedWr ∧
    decode { exampleCtx .none true with ioNeedsSlot := true } (Snapshot.ofWord 0x5006000) = .unselectedRd ∧
    decode { exampleCtx .none true with ioNeedsSlot := true } (Snapshot.ofWord 0xD006000) = .irCtrlStatus := by
  decide +kernel

/-- Words of R67 in their contexts. -/
theorem test_decode_flat :
    decode (exampleCtx .flat16 false) (Snapshot.ofWord 0xC7FFF00) = .mrFlat16 0x3FFF ∧
    decode (exampleCtx .flat32 false) (Snapshot.ofWord 0xC400200) = .mrFlat32Lo 2 ∧
    decode (exampleCtx .flat32 false) (Snapshot.ofWord 0xCBFFF00) = .mrFlat32Hi 0x3FFF ∧
    decode (exampleCtx .linear0 false) (Snapshot.ofWord 0xC000500) = .mrLinear0Part0 5 ∧
    decode (exampleCtx .linear0 false) (Snapshot.ofWord 0xC400000) = .mrLinear0Part1 0 ∧
    decode (exampleCtx .linear0 false) (Snapshot.ofWord 0xCBFFF00) = .mrLinear0Part2 0x3FFF := by
  decide +kernel

/-- Words of R67 in their contexts. -/
theorem test_decode_segmented8 :
    decode (exampleCtx .scc false) (Snapshot.ofWord 0xC5FFF00) = .mrSccBank0 0x1FFF ∧
    decode (exampleCtx .scc false) (Snapshot.ofWord 0xC7FFF00) = .mrSccBank1 0x1FFF ∧
    decode (exampleCtx .scc false) (Snapshot.ofWord 0xC97FF00) = .mrSccBank2 0x17FF ∧
    decode (exampleCtx .scc false) (Snapshot.ofWord 0xCBFFF00) = .mrSccBank3 0x1FFF ∧
    decode (exampleCtx .konami false) (Snapshot.ofWord 0xC5FFF00) = .mrKonamiBank0 0x1FFF ∧
    decode (exampleCtx .konami false) (Snapshot.ofWord 0xC7FFF00) = .mrKonamiBank1 0x1FFF ∧
    decode (exampleCtx .konami false) (Snapshot.ofWord 0xC97FF00) = .mrKonamiBank2 0x17FF ∧
    decode (exampleCtx .konami false) (Snapshot.ofWord 0xCBFFF00) = .mrKonamiBank3 0x1FFF ∧
    decode (exampleCtx .ascii8 false) (Snapshot.ofWord 0xC5FFF00) = .mrAscii8Bank0 0x1FFF ∧
    decode (exampleCtx .ascii8 false) (Snapshot.ofWord 0xC7FFF00) = .mrAscii8Bank1 0x1FFF ∧
    decode (exampleCtx .ascii8 false) (Snapshot.ofWord 0xC97FF00) = .mrAscii8Bank2 0x17FF ∧
    decode (exampleCtx .ascii8 false) (Snapshot.ofWord 0xCBFFF00) = .mrAscii8Bank3 0x1FFF ∧
    decode { exampleCtx .scc false with soundOn := true } (Snapshot.ofWord 0xC980000) = .mrSccSound 0 ∧
    decode { exampleCtx .scc false with soundOn := true } (Snapshot.ofWord 0xC9FFF00) = .mrSccSound 0x7FF ∧
    decode { exampleCtx .scc false with soundOn := true } (Snapshot.ofWord 0xC97FF00) = .mrSccBank2 0x17FF ∧
    decode (exampleCtx .scc false) (Snapshot.ofWord 0xC980000) = .mrSccBank2 0x1800 := by
  decide +kernel

/-- Words of R67 in their contexts. -/
theorem test_decode_segmented16 :
    decode (exampleCtx .ascii16 false) (Snapshot.ofWord 0xC7FFF00) = .mrAscii16Bank0 0x3FFF ∧
    decode (exampleCtx .ascii16 false) (Snapshot.ofWord 0xCBFFF00) = .mrAscii16Bank1 0x3FFF := by
  decide +kernel

/-- Words of R67 in their contexts. -/
theorem test_decode_fine :
    decode (exampleCtx .neo8 false) (Snapshot.ofWord 0xC000100) = .mrNeo8Bank0 1 ∧
    decode (exampleCtx .neo8 false) (Snapshot.ofWord 0xC200100) = .mrNeo8Bank1 1 ∧
    decode (exampleCtx .neo8 false) (Snapshot.ofWord 0xC400100) = .mrNeo8Bank2 1 ∧
    decode (exampleCtx .neo8 false) (Snapshot.ofWord 0xC600100) = .mrNeo8Bank3 1 ∧
    decode (exampleCtx .neo8 false) (Snapshot.ofWord 0xC800100) = .mrNeo8Bank4 1 ∧
    decode (exampleCtx .neo8 false) (Snapshot.ofWord 0xCA00100) = .mrNeo8Bank5 1 ∧
    decode (exampleCtx .neo16 false) (Snapshot.ofWord 0xC000100) = .mrNeo16Bank0 1 ∧
    decode (exampleCtx .neo16 false) (Snapshot.ofWord 0xC400100) = .mrNeo16Bank1 1 ∧
    decode (exampleCtx .neo16 false) (Snapshot.ofWord 0xC800100) = .mrNeo16Bank2 1 ∧
    decode { exampleCtx .neo8 false with neo8Switch := neo8Table } (Snapshot.ofWord 0xA500312) = .mwNeo8Switch 0x5003 0x12 ∧
    decode { exampleCtx .neo16 false with neo16Switch := neo16Table } (Snapshot.ofWord 0xA500407) = .mwNeo16Switch 0x5004 0x07 := by
  decide +kernel

/-- Words of R67 in their contexts. -/
theorem test_decode_switch :
    decode (exampleCtx .scc false) (Snapshot.ofWord 0xA57FF12) = .mwSccBank0 0x7FF 0x12 ∧
    decode (exampleCtx .scc false) (Snapshot.ofWord 0xA77FF12) = .mwSccBank1 0x7FF 0x12 ∧
    decode (exampleCtx .scc false) (Snapshot.ofWord 0xA97FF12) = .mwSccBank2 0x7FF 0x12 ∧
    decode (exampleCtx .scc false) (Snapshot.ofWord 0xAB7FF12) = .mwSccBank3 0x7FF 0x12 ∧
    decode (exampleCtx .konami false) (Snapshot.ofWord 0xA7FFF12) = .mwKonamiBank1 0x1FFF 0x12 ∧
    decode (exampleCtx .konami false) (Snapshot.ofWord 0xA9FFF12) = .mwKonamiBank2 0x1FFF 0x12 ∧
    decode (exampleCtx .konami false) (Snapshot.ofWord 0xABFFF12) = .mwKonamiBank3 0x1FFF 0x12 ∧
    decode (exampleCtx .ascii8 false) (Snapshot.ofWord 0xA67FF12) = .mwAscii8Bank0 0x7FF 0x12 ∧
    decode (exampleCtx .ascii8 false) (Snapshot.ofWord 0xA6FFF12) = .mwAscii8Bank1 0x7FF 0x12 ∧
    decode (exampleCtx .ascii8 false) (Snapshot.ofWord 0xA77FF12) = .mwAscii8Bank2 0x7FF 0x12 ∧
    decode (exampleCtx .ascii8 false) (Snapshot.ofWord 0xA7FFF12) = .mwAscii8Bank3 0x7FF 0x12 ∧
    decode (exampleCtx .ascii16 false) (Snapshot.ofWord 0xA67FF12) = .mwAscii16Bank0 0x7FF 0x12 ∧
    decode (exampleCtx .ascii16 false) (Snapshot.ofWord 0xA77FF12) = .mwAscii16Bank1 0x7FF 0x12 := by
  decide +kernel

/-- Words of R67 in their contexts. -/
theorem test_decode_unserved :
    decode { exampleCtx .scc false with soundOn := true } (Snapshot.ofWord 0xA980012) = .mwSccSound 0 0x12 ∧
    decode (exampleCtx .scc false) (Snapshot.ofWord 0xA980012) = .mwOther 0x9800 0x12 ∧
    decode (exampleCtx .scc false) (Snapshot.ofWord 0xA580009) = .mwOther 0x5800 0x09 ∧
    decode (exampleCtx .konami false) (Snapshot.ofWord 0xA400003) = .mwOther 0x4000 0x03 ∧
    decode (exampleCtx .ascii16 false) (Snapshot.ofWord 0xA680001) = .mwOther 0x6800 0x01 ∧
    decode (exampleCtx .flat16 false) (Snapshot.ofWord 0xC3FFF00) = .memReadUnserved 0x3FFF ∧
    decode (exampleCtx .scc false) (Snapshot.ofWord 0xCC00000) = .memReadUnserved 0xC000 := by
  decide +kernel

/-- Words of R67 in their contexts. -/
theorem test_decode_bridge :
    decode (exampleCtx .none true) (Snapshot.ofWord 0x3006001) = .iwCtrlInit ∧
    decode (exampleCtx .none true) (Snapshot.ofWord 0x3006003) = .iwCtrlGetId ∧
    decode (exampleCtx .none true) (Snapshot.ofWord 0x3006005) = .iwCtrlGetCap ∧
    decode (exampleCtx .none true) (Snapshot.ofWord 0x3006006) = .iwCtrlReadBlock ∧
    decode (exampleCtx .none true) (Snapshot.ofWord 0x3006007) = .iwCtrlReadNext ∧
    decode (exampleCtx .none true) (Snapshot.ofWord 0x3006008) = .iwCtrlWriteBlock ∧
    decode (exampleCtx .none true) (Snapshot.ofWord 0x3006009) = .iwCtrlWriteNext ∧
    decode (exampleCtx .none true) (Snapshot.ofWord 0x3006042) = .iwCtrlUnrecognised 0x42 ∧
    decode (exampleCtx .none true) (Snapshot.ofWord 0x5126000) = .irCtrlStatus ∧
    decode (exampleCtx .none true) (Snapshot.ofWord 0x30061A5) = .iwData 0xA5 ∧
    decode { exampleCtx .none true with sending := true } (Snapshot.ofWord 0x5006100) = .irDataSending ∧
    decode (exampleCtx .none true) (Snapshot.ofWord 0x5006100) = .irDataOther ∧
    decode (exampleCtx .none true) (Snapshot.ofWord 0x5006200) = .ioOtherPort false 0x62 ∧
    decode (exampleCtx .flat16 false) (Snapshot.ofWord 0x3006001) = .ioOtherPort true 0x60 := by
  decide +kernel


/-- A number with a bit above bit 27 is rejected by name (R67). -/
theorem test_decode_rejects_long_word :
    decodeWord (exampleCtx .scc false) 0x10000000 = .error .notASampleWord ∧ decodeTableWord 32 0x1C400000 = none := by
  decide +kernel

/-- Table words in the one context each is read in (log 6). -/
theorem test_table_words :
    decodeTableWord 32 0x0C400000 = some (.mrSccBank0 0) ∧ decodeTableWord 32 0x0A500003 = some (.mwSccBank0 0 3) ∧
    decodeTableWord 32 0x03006009 = some .iwCtrlWriteNext ∧ decodeTableWord 32 0x05006100 = some .irDataOther := by
  decide +kernel

/-! ## WellFormed: for each condition a row that fails it -/

/-- Every row that names a scheme is refused in a context of another scheme. -/
theorem test_wellFormed_refuses_scheme :
    ([.mrFlat16 0, .mrFlat32Lo 0, .mrFlat32Hi 0, .mrLinear0Part0 0, .mrLinear0Part1 0, .mrLinear0Part2 0, .mrSccBank0 0,
      .mrSccBank1 0, .mrSccBank2 0, .mrSccBank3 0, .mrKonamiBank0 0, .mrKonamiBank1 0, .mrKonamiBank2 0, .mrKonamiBank3 0,
      .mrAscii8Bank0 0, .mrAscii8Bank1 0, .mrAscii8Bank2 0, .mrAscii8Bank3 0, .mrAscii16Bank0 0, .mrAscii16Bank1 0,
      .mrNeo8Bank0 0, .mrNeo8Bank1 0, .mrNeo8Bank2 0, .mrNeo8Bank3 0, .mrNeo8Bank4 0, .mrNeo8Bank5 0, .mrNeo16Bank0 0,
      .mrNeo16Bank1 0, .mrNeo16Bank2 0, .mrSccSound 0, .mwSccBank0 0 0, .mwSccBank1 0 0, .mwSccBank2 0 0, .mwSccBank3 0 0,
      .mwKonamiBank1 0 0, .mwKonamiBank2 0 0, .mwKonamiBank3 0 0, .mwAscii8Bank0 0 0, .mwAscii8Bank1 0 0, .mwAscii8Bank2 0 0,
      .mwAscii8Bank3 0 0, .mwAscii16Bank0 0 0, .mwAscii16Bank1 0 0, .mwSccSound 0 0, .mwNeo8Switch 0x5002 0,
      .mwNeo16Switch 0x5004 0] : List Instr).all (fun i => !WellFormed (exampleCtx .none true) i) = true := by
  decide +kernel

/-- Every bridge row is refused where the bridge is off. -/
theorem test_wellFormed_refuses_bridge_off :
    ([.iwCtrlInit, .iwCtrlGetId, .iwCtrlGetCap, .iwCtrlReadBlock, .iwCtrlReadNext, .iwCtrlWriteBlock, .iwCtrlWriteNext,
      .iwCtrlUnrecognised 0x42, .irCtrlStatus, .iwData 0, .irDataSending, .irDataOther] : List Instr).all
      (fun i => !WellFormed (exampleCtx .scc false) i) = true := by
  decide +kernel

/-- The other conditions: the sound enable, the switch tables, the windows, the command byte, the phase of
the session and the ports. -/
theorem test_wellFormed_refuses_conditions :
    WellFormed { exampleCtx .scc false with soundOn := true } (.mrSccBank2 0x1800) = false ∧
    WellFormed (exampleCtx .scc false) (.mrSccSound 0) = false ∧
    WellFormed (exampleCtx .scc false) (.mwSccSound 0 0) = false ∧
    WellFormed { exampleCtx .neo8 false with neo8Switch := neo8Table } (.mwNeo8Switch 0x5004 0) = false ∧
    WellFormed { exampleCtx .neo16 false with neo16Switch := neo16Table } (.mwNeo16Switch 0x5005 0) = false ∧
    WellFormed { exampleCtx .scc false with soundOn := true } (.mwOther 0x9FFF 0) = false ∧
    WellFormed (exampleCtx .scc false) (.mwOther 0x57FF 0) = false ∧
    WellFormed (exampleCtx .flat16 false) (.memReadUnserved 0x7FFF) = false ∧
    WellFormed (exampleCtx .none true) (.iwCtrlUnrecognised 0x09) = false ∧
    WellFormed (exampleCtx .none true) .irDataSending = false ∧
    WellFormed { exampleCtx .none true with sending := true } .irDataOther = false ∧
    WellFormed (exampleCtx .none true) (.ioOtherPort false 0x60) = false ∧
    WellFormed (exampleCtx .none true) (.ioOtherPort true 0x61) = false := by
  decide +kernel

/-! ## One step of each row (95_test_vectors.md) -/

/-- The bytes of the test store that the vectors read (95_test_vectors.md section 0). -/
def testStore : Memory := [
  (0x10000, 0x00), (0x10001, 0x01), (0x10002, 0x02), (0x10005, 0x05), (0x10100, 0x05), (0x11000, 0x50),
  (0x11FFF, 0x9F), (0x12000, 0xA0), (0x12001, 0xA1), (0x13FFF, 0x44), (0x14000, 0x45), (0x14002, 0x47),
  (0x15800, 0xBD), (0x16000, 0xE5), (0x16001, 0xE6), (0x17FFF, 0x89), (0x18000, 0x8A), (0x18002, 0x8C),
  (0x1A000, 0x2F), (0x1A001, 0x30), (0x1BFFF, 0xCE), (0x1C000, 0xCF), (0x1E000, 0x74), (0x1FFFF, 0x18),
  (0x2E000, 0x8D), (0x4FFFF, 0x63), (0x50000, 0x64)]

/-- The parameters of the vectors: the test store, the example ports and identity. -/
def testParams : Params :=
  { resetParams with store := testStore, storeLen := 0x60000, neo8Switch := neo8Table, neo16Switch := neo16Table }

/-- The machine after boot in a memory configuration, its bank registers given. -/
def memState (sch : Scheme) (size : U32) (b0 b1 b2 b3 : BankReg) : State :=
  { State.reset with
    par := testParams
    phase := .serve
    cfg := ⟨0, sch, false, 0x10000, size, 0⟩
    bank := #v[b0, b1, b2, b3, 4, 5] }

/-- The machine after boot in configuration 10, the device ready or not, its session given. -/
def bridgeState (ready : Bool) (br : Bridge) : State :=
  { State.reset with
    par := testParams
    dev := ⟨ready, 16⟩
    phase := .serve
    cfg := ⟨10, .none, true, 0, 0, 0⟩
    br := br }

/-- The state after one step on a sample word, the pins at their own polarity. -/
def after (w : SampleWord) (s : State) : Option State :=
  match step { s with inputs := [[.sample (pinsOf s.par w)]] } with
  | .next t => some t
  | .fault _ => none
  | .refused _ => none

/-- The byte driven after one step on a sample word; the inner `none` is the released bus. -/
def shown (w : SampleWord) (s : State) : Option (Option Byte) := (after w s).map dOut

/-- What the vectors state of the bus side. -/
structure BusView where
  fsm : Fsm
  out : Option Byte
  banks : List BankReg
deriving DecidableEq, Repr

/-- The FSM, the data bus and the bank registers after one step on a sample word. -/
def served (w : SampleWord) (s : State) : Option BusView := (after w s).map fun t => ⟨t.fsm, dOut t, t.bank.toList⟩

/-- One bank register after one step on a sample word. -/
def bankAfter (r : Fin 6) (w : SampleWord) (s : State) : Option BankReg := (after w s).map fun t => t.bank[r]

/-- The registers of a bridge session the vectors state. -/
structure SessionView where
  state : BrState
  addrCount : Nat
  lba : U32
  cursor : Nat
  remaining : Nat
  status : Byte
  lastCmd : Byte
  seqValid : Bool
deriving DecidableEq, Repr

/-- The session after one step on a sample word, its buffer and directions apart. -/
def sessionAfter (w : SampleWord) (s : State) : Option SessionView :=
  (after w s).map fun t =>
    ⟨t.br.state, t.br.addrCount, t.br.lba, t.br.cursor, t.br.remaining, t.br.status, t.br.lastCmd, t.br.seqValid⟩

/-- V9, V12: an ignored sample changes nothing; outside SERVE no sample does. -/
theorem test_unserved_classes :
    served 0x0E400000 (memState .flat16 0x4000 0 1 2 3) = some ⟨.idle, none, [0, 1, 2, 3, 4, 5]⟩ ∧
    served 0x00400000 (memState .flat16 0x4000 0 1 2 3) = some ⟨.idle, none, [0, 1, 2, 3, 4, 5]⟩ ∧
    served 0x04400000 (memState .flat16 0x4000 0 1 2 3) = some ⟨.idle, none, [0, 1, 2, 3, 4, 5]⟩ ∧
    served 0x02400000 (memState .flat16 0x4000 0 1 2 3) = some ⟨.idle, none, [0, 1, 2, 3, 4, 5]⟩ ∧
    served 0x05006000 (memState .flat16 0x4000 0 1 2 3) = some ⟨.idle, none, [0, 1, 2, 3, 4, 5]⟩ ∧
    served 0x0C400000 { memState .flat16 0x4000 0 1 2 3 with phase := .halt } = some ⟨.idle, none, [0, 1, 2, 3, 4, 5]⟩ := by
  decide +kernel

/-- V14. -/
theorem test_flat16 :
    shown 0x0C7FFF00 (memState .flat16 0x4000 0 1 2 3) = some (some 0x44) ∧
    shown 0x0C600000 (memState .flat16 0x2000 0 1 2 3) = some (some 0xFF) ∧
    shown 0x0C5FFF00 (memState .flat16 0x2000 0 1 2 3) = some (some 0x9F) := by
  decide +kernel

/-- V14. -/
theorem test_flat32 :
    shown 0x0C400200 (memState .flat32 0x8000 0 1 2 3) = some (some 0x02) ∧
    shown 0x0CBFFF00 (memState .flat32 0x8000 0 1 2 3) = some (some 0x89) := by
  decide +kernel

/-- V14; the second by the same formula, rel 0x4000. -/
theorem test_linear0 :
    shown 0x0C000500 (memState .linear0 0xC000 0 1 2 3) = some (some 0x05) ∧
    shown 0x0C400000 (memState .linear0 0xC000 0 1 2 3) = some (some 0x45) ∧
    shown 0x0CBFFF00 (memState .linear0 0xC000 0 1 2 3) = some (some 0xCE) := by
  decide +kernel

/-- V14, V15, P2: outside the windows nothing is driven. -/
theorem test_unserved_reads :
    shown 0x0C3FFF00 (memState .flat16 0x4000 0 1 2 3) = some none ∧
    shown 0x0C800000 (memState .flat16 0x4000 0 1 2 3) = some none ∧
    shown 0x0CC00000 (memState .scc 0x20000 0 1 2 3) = some none ∧
    shown 0x0C400000 (memState .none 0x0 0 1 2 3) = some none := by
  decide +kernel

/-- V15. -/
theorem test_scc_reads :
    shown 0x0C500000 (memState .scc 0x20000 0 1 2 3) = some (some 0x50) ∧
    shown 0x0C600000 (memState .scc 0x20000 2 5 2 3) = some (some 0x2F) ∧
    shown 0x0C980000 (memState .scc 0x20000 2 5 2 3) = some (some 0xBD) ∧
    shown 0x0CA00100 (memState .scc 0x20000 0 1 2 3) = some (some 0xE6) ∧
    shown 0x0C97FF00 (memState .scc 0x20000 2 5 0x3F 3) = some (some 0xFF) := by
  decide +kernel

/-- V16, P1. -/
theorem test_konami_reads :
    shown 0x0C400000 (memState .konami 0x20000 0 1 2 3) = some (some 0x00) ∧
    shown 0x0C600100 (memState .konami 0x20000 0 5 2 3) = some (some 0x30) ∧
    shown 0x0C800000 (memState .konami 0x20000 0 6 0x0F 3) = some (some 0x8D) ∧
    shown 0x0CA00000 (memState .konami 0x20000 0 6 0x0F 0x10) = some (some 0xFF) := by
  decide +kernel

/-- V17. -/
theorem test_ascii8_reads :
    shown 0x0C400000 (memState .ascii8 0x20000 1 7 2 2) = some (some 0xA0) ∧
    shown 0x0C600000 (memState .ascii8 0x20000 0 7 2 3) = some (some 0x74) ∧
    shown 0x0C800000 (memState .ascii8 0x20000 0 1 2 3) = some (some 0x45) ∧
    shown 0x0CA00000 (memState .ascii8 0x20000 1 7 2 2) = some (some 0x45) := by
  decide +kernel

/-- V18. -/
theorem test_ascii16_reads :
    shown 0x0C400000 (memState .ascii16 0x10000 3 2 2 3) = some (some 0xCF) ∧
    shown 0x0C7FFF00 (memState .ascii16 0x10000 3 2 2 3) = some (some 0x18) ∧
    shown 0x0C800200 (memState .ascii16 0x10000 0 1 2 3) = some (some 0x47) := by
  decide +kernel

/-- V19, and each window by R112 on the test store. -/
theorem test_neo8_reads :
    shown 0x0C000100 (memState .neo8 0x20000 0 1 2 3) = some (some 0x01) ∧
    shown 0x0C200000 (memState .neo8 0x20000 0 5 2 3) = some (some 0x2F) ∧
    shown 0x0C200000 (memState .neo8 0x20000 0 0x234 2 3) = some (some 0xFF) ∧
    shown 0x0C400000 (memState .neo8 0x20000 0 1 2 3) = some (some 0x45) ∧
    shown 0x0C600000 (memState .neo8 0x20000 0 1 2 3) = some (some 0xE5) ∧
    shown 0x0C800000 (memState .neo8 0x20000 0 1 2 3) = some (some 0x8A) ∧
    shown 0x0CA00000 (memState .neo8 0x20000 0 1 2 3) = some (some 0x2F) := by
  decide +kernel

/-- V20. -/
theorem test_neo16_reads :
    shown 0x0C000000 (memState .neo16 0x20000 0 1 2 3) = some (some 0x00) ∧
    shown 0x0C400000 (memState .neo16 0x20000 0 1 2 3) = some (some 0x45) ∧
    shown 0x0C800000 (memState .neo16 0x20000 0 1 2 3) = some (some 0x8A) := by
  decide +kernel

/-- V15, and the ranges of R83. -/
theorem test_scc_switches :
    bankAfter 0 0x0A57FF02 (memState .scc 0x20000 0 1 2 3) = some 0x002 ∧
    bankAfter 1 0x0A700005 (memState .scc 0x20000 0 1 2 3) = some 0x005 ∧
    bankAfter 2 0x0A90003F (memState .scc 0x20000 0 1 2 3) = some 0x03F ∧
    bankAfter 3 0x0AB7FF09 (memState .scc 0x20000 0 1 2 3) = some 0x009 := by
  decide +kernel

/-- V16. -/
theorem test_konami_switches :
    bankAfter 1 0x0A7FFF06 (memState .konami 0x20000 0 1 2 3) = some 0x006 ∧
    bankAfter 2 0x0A80000F (memState .konami 0x20000 0 1 2 3) = some 0x00F ∧
    bankAfter 3 0x0AA000FF (memState .konami 0x20000 0 1 2 3) = some 0x0FF := by
  decide +kernel

/-- V17, and the range of bank 2 in R83. -/
theorem test_ascii8_switches :
    bankAfter 0 0x0A600001 (memState .ascii8 0x20000 0 1 2 3) = some 0x001 ∧
    bankAfter 1 0x0A6ABC07 (memState .ascii8 0x20000 0 1 2 3) = some 0x007 ∧
    bankAfter 2 0x0A77FF04 (memState .ascii8 0x20000 0 1 2 3) = some 0x004 ∧
    bankAfter 3 0x0A7FFF02 (memState .ascii8 0x20000 0 1 2 3) = some 0x002 := by
  decide +kernel

/-- V18. -/
theorem test_ascii16_switches :
    bankAfter 0 0x0A67FF04 (memState .ascii16 0x10000 0 1 2 3) = some 0x004 ∧
    bankAfter 1 0x0A700002 (memState .ascii16 0x10000 0 1 2 3) = some 0x002 := by
  decide +kernel

/-- V19; the LO lane of a NEO16 register by R116. -/
theorem test_fine_switches :
    bankAfter 1 0x0A500205 (memState .neo8 0x20000 0 0xF34 2 3) = some 0xF05 ∧
    bankAfter 1 0x0A5003FF (memState .neo8 0x20000 0 0x234 2 3) = some 0xF34 ∧
    bankAfter 2 0x0A500407 (memState .neo16 0x20000 0 1 2 3) = some 0x007 := by
  decide +kernel

/-- V10, V15, V16, V18: writes that switch nothing. -/
theorem test_other_writes :
    served 0x0A400012 (memState .flat16 0x20000 0 1 2 3) = some ⟨.idle, none, [0, 1, 2, 3, 4, 5]⟩ ∧
    served 0x0A580009 (memState .scc 0x20000 0 1 2 3) = some ⟨.idle, none, [0, 1, 2, 3, 4, 5]⟩ ∧
    served 0x0A400003 (memState .konami 0x20000 0 1 2 3) = some ⟨.idle, none, [0, 1, 2, 3, 4, 5]⟩ ∧
    served 0x0A680001 (memState .ascii16 0x20000 0 1 2 3) = some ⟨.idle, none, [0, 1, 2, 3, 4, 5]⟩ ∧
    served 0x0A980000 (memState .scc 0x20000 2 5 0x3F 3) = some ⟨.idle, none, [2, 5, 0x3F, 3, 4, 5]⟩ := by
  decide +kernel

/-- V15: a read in the mapped sound region releases the bus or drives some byte; either way one draw is taken
and no register changes. -/
theorem test_sound_read :
    decode (ctxOf (memState .scc 0x20000 2 5 0x3F 3)) (Snapshot.ofWord 0x0C980000) = .mrSccSound 0 ∧
    ∃ t, exec (.mrSccSound 0) (memState .scc 0x20000 2 5 0x3F 3) = .next t ∧ t.draws = 1 ∧ t.bank[2] = 0x3F := by
  refine ⟨by decide +kernel, _, rfl, ?_⟩
  rcases drawCycle_cases (memState .scc 0x20000 2 5 0x3F 3) with h | ⟨b, h⟩ <;> rw [h] <;> exact ⟨rfl, rfl⟩

/-- V7, V11: a hold examines only its own strobe. -/
theorem test_hold :
    (after 0x0E400000 { memState .flat16 0x4000 0 1 2 3 with fsm := .readHold, dout := 0x00 }).map (fun t => (t.fsm, dOut t)) = some (.readHold, some 0x00) ∧
    (after 0x00410000 { memState .flat16 0x4000 0 1 2 3 with fsm := .readHold, dout := 0x00 }).map (fun t => (t.fsm, dOut t)) = some (.idle, none) ∧
    (after 0x0E600007 { memState .konami 0x20000 0 5 2 3 with fsm := .writeHold }).map (fun t => (t.fsm, t.bank[1])) = some (.writeHold, 5) ∧
    (after 0x00600007 { memState .konami 0x20000 0 5 2 3 with fsm := .writeHold }).map (fun t => (t.fsm, t.bank[1])) = some (.idle, 5) := by
  decide +kernel

/-- A session that has read block 5 (V28): SENDING with 510 bytes left, a valid read cursor. -/
def sendingSession : Bridge :=
  { resetBridge with
    state := .sending, lba := 5, cursor := 2, remaining := 510, status := 0x02, seqValid := true
    buf := (resetBridge.buf.put 2 0x25).put 3 0x26 }

/-- A session that has written block 7 (V29): IDLE with a valid write cursor. -/
def writtenSession : Bridge := { resetBridge with dir := .write, lba := 7, seqValid := true, seqDir := .write }

/-- A session after three LBA bytes of a READ_BLOCK of block 2 (V26). -/
def addressSession : Bridge := { resetBridge with state := .awaitAddr, addrCount := 3, lba := 2, lastCmd := 0x06 }

/-- A session after 511 payload bytes of a WRITE_BLOCK of block 3 (P4). -/
def payloadSession : Bridge :=
  { resetBridge with state := .awaitPayload, dir := .write, addrCount := 4, lba := 3, cursor := 511, lastCmd := 0x08 }

/-- A session waiting for the read of block 5. -/
def readingSession : Bridge := { resetBridge with state := .readPending, addrCount := 4, lba := 5, status := 0x01 }

/-- A session waiting for the write of block 5. -/
def writingSession : Bridge :=
  { resetBridge with state := .writePending, dir := .write, addrCount := 4, lba := 5, cursor := 512, status := 0x01 }

/-- Configuration 10 with the read of block 5 in flight. -/
def readingState : State := { bridgeState true readingSession with co := ⟨true, .none, .read, 5⟩ }

/-- Configuration 10 with the write of block 5 in flight. -/
def writingState : State := { bridgeState true writingSession with co := ⟨true, .none, .write, 5⟩ }

/-- V23, V33. -/
theorem test_init :
    sessionAfter 0x03006001 (bridgeState true sendingSession) = some ⟨.idle, 0, 5, 0, 0, 0x00, 0x01, false⟩ ∧
    sessionAfter 0x03006001 (bridgeState false resetBridge) = some ⟨.idle, 0, 0, 0, 0, 0xFF, 0x01, false⟩ := by
  decide +kernel

/-- V24. -/
theorem test_getId :
    sessionAfter 0x03006003 (bridgeState false resetBridge) = some ⟨.sending, 0, 0, 0, 2, 0x02, 0x03, false⟩ ∧
    (after 0x03006003 (bridgeState true resetBridge)).map (fun t => t.br.buf.bytes.take 2) = some [0x50, 0x56] := by
  decide +kernel

/-- V25. -/
theorem test_getCap :
    (after 0x03006005 { bridgeState true resetBridge with dev := ⟨true, 0x0003C000⟩ }).map
      (fun t => (t.br.remaining, t.br.buf.bytes.take 4)) = some (4, [0x00, 0xC0, 0x03, 0x00]) ∧
    sessionAfter 0x03006005 (bridgeState false resetBridge) = some ⟨.idle, 0, 0, 0, 0, 0xFF, 0x05, false⟩ := by
  decide +kernel

/-- V26. -/
theorem test_readBlock :
    sessionAfter 0x03006006 (bridgeState true writtenSession) = some ⟨.awaitAddr, 0, 0, 0, 0, 0x00, 0x06, false⟩ := by
  decide +kernel

/-- V29. -/
theorem test_readNext :
    sessionAfter 0x03006007 (bridgeState true sendingSession) = some ⟨.readPending, 0, 6, 0, 0, 0x01, 0x07, false⟩ ∧
    sessionAfter 0x03006007 (bridgeState true writtenSession) = some ⟨.idle, 0, 7, 0, 0, 0xFF, 0x07, false⟩ := by
  decide +kernel

/-- R180. -/
theorem test_writeBlock :
    sessionAfter 0x03006008 (bridgeState true sendingSession) = some ⟨.awaitAddr, 0, 0, 0, 0, 0x00, 0x08, false⟩ ∧
    (after 0x03006008 (bridgeState true sendingSession)).map (fun t => t.br.dir) = some .write := by
  decide +kernel

/-- V29. -/
theorem test_writeNext :
    sessionAfter 0x03006009 (bridgeState true writtenSession) = some ⟨.awaitPayload, 0, 8, 0, 0, 0x00, 0x09, false⟩ ∧
    sessionAfter 0x03006009 (bridgeState true sendingSession) = some ⟨.idle, 0, 5, 0, 0, 0xFF, 0x09, false⟩ := by
  decide +kernel

/-- V31, V32. -/
theorem test_ignored_commands :
    sessionAfter 0x03006042 (bridgeState true sendingSession) = some ⟨.sending, 0, 5, 2, 510, 0x02, 0x00, true⟩ ∧
    sessionAfter 0x03006001 readingState = some ⟨.readPending, 4, 5, 0, 0, 0x01, 0x00, false⟩ := by
  decide +kernel

/-- V13, V26: the status read; with a synchronous coordinator the bus is not served. -/
theorem test_status :
    shown 0x05006000 readingState = some (some 0x01) ∧
    shown 0x05006000 { readingState with par := { testParams with coordMode := .sync }, fsm := .writeHold } = some none := by
  decide +kernel

/-- V26, V30, P4. -/
theorem test_data_write :
    sessionAfter 0x03006100 (bridgeState true addressSession) = some ⟨.readPending, 4, 2, 0, 0, 0x01, 0x06, false⟩ ∧
    sessionAfter 0x03006101 (bridgeState true addressSession) = some ⟨.idle, 0, 0x01000002, 0, 0, 0xFF, 0x06, false⟩ ∧
    sessionAfter 0x030061FF (bridgeState true payloadSession) = some ⟨.writePending, 4, 3, 512, 0, 0x01, 0x08, false⟩ ∧
    sessionAfter 0x030061FF (bridgeState true { payloadSession with lba := 32 }) = some ⟨.idle, 0, 32, 0, 0, 0xFF, 0x08, false⟩ := by
  decide +kernel

/-- V27, V31. -/
theorem test_data_read :
    shown 0x05006100 (bridgeState true sendingSession) = some (some 0x25) ∧
    sessionAfter 0x05006100 (bridgeState true sendingSession) = some ⟨.sending, 0, 5, 3, 509, 0x02, 0x00, true⟩ ∧
    sessionAfter 0x05006100 (bridgeState true { sendingSession with cursor := 511, remaining := 1 }) = some ⟨.idle, 0, 5, 512, 0, 0x00, 0x00, true⟩ ∧
    shown 0x05006100 readingState = some (some 0xFF) := by
  decide +kernel

/-- Section 2.1: port 0x62 is not served. -/
theorem test_other_port :
    served 0x05006200 (bridgeState true resetBridge) = some ⟨.idle, none, [0, 0, 0, 0, 0, 0]⟩ ∧
    served 0x03006255 (bridgeState true resetBridge) = some ⟨.idle, none, [0, 0, 0, 0, 0, 0]⟩ := by
  decide +kernel
/-! ## Events and boot (95_test_vectors.md sections 2.6 and 2.7) -/

/-- The state after one step on the events offered at one instant. -/
def afterEvents (es : List Event) (s : State) : Option State :=
  match step { s with inputs := [es] } with
  | .next t => some t
  | .fault _ => none
  | .refused _ => none

/-- V35, V37: a completion; a reset outranks it. -/
theorem test_complete :
    (afterEvents [.complete true zeroBuffer] readingState).map (fun t => t.co) = some ⟨false, .ready, .read, 5⟩ ∧
    (afterEvents [.complete false zeroBuffer] readingState).map (fun t => t.co) = some ⟨false, .failed, .read, 5⟩ ∧
    (afterEvents [.complete true zeroBuffer, .reset] readingState).map (fun t => (t.phase, t.co)) =
      some (.boot, ⟨false, .none, .read, 0⟩) := by
  decide +kernel

/-- R59, R235: samples of one instant run in the order the host issues them, a higher-ranked event before them;
of two mounts the first offered comes first (log 3). -/
theorem test_event_order :
    pickEvent (.sample 1) [.sample 2, .complete false zeroBuffer, .sample 3] =
      (.complete false zeroBuffer, [.sample 1, .sample 2, .sample 3]) ∧
    pickEvent (.sample 1) [.sample 2, .sample 3] = (.sample 1, [.sample 2, .sample 3]) ∧
    pickEvent (.bootStep) [.mount 1, .mount 2, .sample 3] = (.mount 1, [.bootStep, .mount 2, .sample 3]) := by
  decide +kernel

/-- V35: the next poll absorbs the outcome. -/
theorem test_absorb :
    sessionAfter 0 { readingState with co := ⟨false, .ready, .read, 5⟩ } = some ⟨.sending, 4, 5, 0, 512, 0x02, 0x00, true⟩ ∧
    sessionAfter 0 { readingState with co := ⟨false, .failed, .read, 5⟩ } = some ⟨.idle, 0, 5, 0, 0, 0xFF, 0x00, false⟩ ∧
    sessionAfter 0 { writingState with co := ⟨false, .ready, .write, 5⟩ } = some ⟨.idle, 4, 5, 512, 0, 0x00, 0x00, true⟩ := by
  decide +kernel

/-- V36: a removal while a read is in flight; a mount. -/
theorem test_device_events :
    (afterEvents [.remove] readingState).map (fun t => (t.br.state, t.br.status)) = some (.idle, 0xFF) ∧
    (afterEvents [.remove] readingState).map (fun t => (t.co.inFlight, t.dev.ready)) = some (false, false) ∧
    (afterEvents [.mount 1000] (bridgeState false resetBridge)).map (fun t => t.dev) = some ⟨true, 1000⟩ := by
  decide +kernel

/-- A store with one header record at 0x100, NAME_LEN 2 (section 2.7). -/
def headerParams (len : Nat) (tag size2 offset1 : Byte) : Params :=
  { resetParams with
    store := [(0x100, 0x41), (0x101, 0x42), (0x102, tag), (0x103, 0x00), (0x104, 0x40), (0x105, size2), (0x106, 0x00),
      (0x107, 0x00), (0x108, offset1), (0x109, 0x00), (0x10A, 0x00)]
    storeLen := len
    headerBase := 0x100
    nameLen := 2 }

/-- The machine in BOOT with given parameters. -/
def bootState (p : Params) : State := { State.reset with par := p }

/-- B8 with one record, then a second one at 0x10B and the active index 1. -/
def secondParams : Params :=
  { headerParams 0x10000 0 0x00 0xC0 with
    store := (headerParams 0x10000 0 0x00 0xC0).store ++ [(0x10B, 0x43), (0x10C, 0x44), (0x10D, 0x06), (0x10E, 0x00),
      (0x10F, 0x00), (0x110, 0x01), (0x111, 0x00), (0x112, 0x00), (0x113, 0x00), (0x114, 0x00), (0x115, 0x00)]
    activeIndex := 1 }

/-- B1, B4, B5, B8, B9, V38: what the boot step enters and latches. -/
theorem test_boot :
    ((afterEvents [.bootStep] (bootState (headerParams 0x10000 1 0x00 0x02))).map fun t => (t.phase, t.cfg)) =
      some (.serve, ⟨1, .flat16, false, 0x200, 0x4000, 0⟩) ∧
    ((afterEvents [.bootStep] (bootState (headerParams 0x10000 0 0x00 0x02))).map fun t => t.phase) = some .halt ∧
    ((afterEvents [.bootStep] (bootState (headerParams 0x10000 11 0x00 0x02))).map fun t => t.phase) = some .halt ∧
    ((afterEvents [.bootStep] (bootState (headerParams 0x10000 1 0x00 0xC0))).map fun t => t.phase) = some .serve ∧
    ((afterEvents [.bootStep] (bootState (headerParams 0xFFFF 1 0x00 0xC0))).map fun t => t.phase) = some .halt ∧
    ((afterEvents [.bootStep] (bootState secondParams)).map fun t => t.cfg) =
      some ⟨6, .ascii16, false, 0, 0x10000, 0⟩ ∧
    ((afterEvents [.bootStep] (bootState { headerParams 0x10000 1 0x00 0x02 with useCache := true })).map
      fun t => t.cfg.stagedLen) = some 0x4000 := by
  decide +kernel

/-! ## Witnesses: a state and operands that meet each statement's hypotheses -/

/-- Configuration 3 in SERVE, the first two payload bytes staged. -/
def sccState : State :=
  { memState .scc 0x20000 0 1 2 3 with
    par := { testParams with useCache := true, cacheMax := 2 }
    cfg := ⟨3, .scc, false, 0x10000, 0x20000, 2⟩
    cache := [(0, 0x00), (1, 0x01)] }

/-- Configuration 10 with a synchronous coordinator and the read of block 5 in flight. -/
def syncState : State := { readingState with par := { testParams with coordMode := .sync }, fsm := .writeHold }

/-- The parameters of the vectors meet the premises. -/
theorem witness_paramsOk : ParamsOk testParams := by constructor <;> decide +kernel

/-- The state `sccState` has its payload in the store and in the cache. -/
theorem witness_storeReady : StoreReady sccState ∧ StoreReady (memState .flat16 0x4000 0 1 2 3) := by
  constructor <;> constructor <;> decide +kernel

/-- A polling SERVE state of a memory configuration meets the invariant. -/
theorem witness_coreInv_scc : CoreInv sccState where
  params := by constructor <;> decide +kernel
  cacheForm := by decide +kernel
  cacheBelow := by decide +kernel
  holdsInServe := by decide +kernel
  oneOutcome := by decide +kernel
  pendingIff := by decide +kernel
  pendingOp := by decide +kernel
  status := by decide +kernel
  sending := by decide +kernel
  payload := by decide +kernel
  address := by decide +kernel
  quietCoord := by decide +kernel
  inRange := by decide +kernel
  syncHold := by decide +kernel
  served := fun _ => by
    constructor
    case store => exact witness_storeReady.1
    all_goals decide +kernel

/-- A state of configuration 10 with an operation in flight meets the invariant. -/
theorem witness_coreInv_reading : CoreInv readingState where
  params := witness_paramsOk
  cacheForm := by decide +kernel
  cacheBelow := by decide +kernel
  holdsInServe := by decide +kernel
  oneOutcome := by decide +kernel
  pendingIff := by decide +kernel
  pendingOp := by decide +kernel
  status := by decide +kernel
  sending := by decide +kernel
  payload := by decide +kernel
  address := by decide +kernel
  quietCoord := by decide +kernel
  inRange := by decide +kernel
  syncHold := by decide +kernel
  served := fun _ => by
    constructor
    case store => constructor <;> decide +kernel
    all_goals decide +kernel

/-- And so does one with a synchronous coordinator, in its hold. -/
theorem witness_coreInv_sync : CoreInv syncState where
  params := by constructor <;> decide +kernel
  cacheForm := by decide +kernel
  cacheBelow := by decide +kernel
  holdsInServe := by decide +kernel
  oneOutcome := by decide +kernel
  pendingIff := by decide +kernel
  pendingOp := by decide +kernel
  status := by decide +kernel
  sending := by decide +kernel
  payload := by decide +kernel
  address := by decide +kernel
  quietCoord := by decide +kernel
  inRange := by decide +kernel
  syncHold := by decide +kernel
  served := fun _ => by
    constructor
    case store => constructor <;> decide +kernel
    all_goals decide +kernel

/-- DecodeEncodeAgree: a well-formed row in a context of two ports. -/
theorem witness_DecodeEncodeAgree :
    (exampleCtx .scc false).ctrlPort ≠ (exampleCtx .scc false).dataPort ∧
    WellFormed (exampleCtx .scc false) (.mrSccBank2 0x1FFF) = true ∧ WellFormed (exampleCtx .none true) (.iwData 0xFF) = true := by
  decide +kernel

/-- StepRunsDecodedRow: a sample offered alone in SERVE and IDLE. -/
theorem witness_StepRunsDecodedRow :
    ({ sccState with inputs := [[.sample 0]] } : State).inputs = [.sample 0] :: [] ∧
    sccState.phase = .serve ∧ sccState.fsm = .idle ∧ (sccState.cfg.bridgeEn = true → sccState.co.result = .none) ∧
    syncBlocked sccState = false := by
  decide +kernel

/-- PlacedWordIsRun: a table word. -/
theorem witness_PlacedWordIsRun : decodeTableWord 28 0x0C400000 = some (.mrSccBank0 0) := by decide +kernel

/-- From reset, a placed word's row is run by the next step: the byte read is past the empty payload. -/
theorem test_withFetchWord : ((match step (State.reset.withFetchWord 28 0x0C400000) with
    | .next t => some (dOut t)
    | .fault _ => none
    | .refused _ => none) : Option (Option Byte)) = some (some 0xFF) := by decide +kernel

/-- CompletionAbsorbedFirst: a state of each case. -/
theorem witness_CompletionAbsorbedFirst :
    (readingState.co.inFlight = true ∧ sccState.co.result = .none) ∧
    (∃ s : State, s.co.inFlight = false ∧ s.co.result = .ready ∧ s.br.state = .readPending) ∧
    (∃ s : State, s.co.inFlight = false ∧ s.co.result = .ready ∧ s.br.state = .writePending) ∧
    (∃ s : State, s.co.inFlight = false ∧ s.co.result = .failed) ∧
    (readingState.phase = .serve ∧ readingState.cfg.bridgeEn = true ∧ absorb readingState = .next readingState) :=
  ⟨⟨rfl, rfl⟩, ⟨{ readingState with co := ⟨false, .ready, .read, 5⟩ }, rfl, rfl, rfl⟩,
    ⟨{ writingState with co := ⟨false, .ready, .write, 5⟩ }, rfl, rfl, rfl⟩,
    ⟨{ readingState with co := ⟨false, .failed, .read, 5⟩ }, rfl, rfl⟩, rfl, rfl, rfl⟩

/-- HoldsWaitForTheirStrobe: a state in each hold. -/
theorem witness_HoldsWaitForTheirStrobe : ∀ f : Fsm,
    sccState.phase = .serve ∧ absorbFirst { sccState with fsm := f } = .next { sccState with fsm := f } ∧
    syncBlocked { sccState with fsm := f } = false := fun _ => ⟨rfl, rfl, rfl⟩

/-- NothingServedOutsideServe: BOOT and HALT. -/
theorem witness_NothingServedOutsideServe :
    State.reset.phase ≠ .serve ∧ ({ State.reset with phase := .halt } : State).phase ≠ .serve := by decide

/-- SyncOperationBlocksBus: an operation in flight with a synchronous coordinator. -/
theorem witness_SyncOperationBlocksBus :
    CoreInv syncState ∧ syncState.par.coordMode = .sync ∧ syncState.co.inFlight = true :=
  ⟨witness_coreInv_sync, rfl, rfl⟩

/-- An outcome is a next state of which `p` holds. -/
def nextIs (o : Host.Outcome State Fault Refusal) (p : State → Bool) : Bool :=
  match o with
  | .next t => p t
  | .fault _ => false
  | .refused _ => false

/-- What `nextIs` says. -/
theorem nextIs_next {o : Host.Outcome State Fault Refusal} {p : State → Bool} (h : nextIs o p = true) :
    ∃ t, o = .next t ∧ p t = true := by
  cases o with
  | next t => exact ⟨t, rfl, h⟩
  | fault f => cases h
  | refused r => cases h

/-- HeldStrobeServedOnce: a served read and a served write. -/
theorem witness_HeldStrobeServedOnce :
    (∃ t, busStep (readAt 0x4000) sccState = .next t ∧ (t.fsm == .readHold && (readAt 0x4000).rd) = true) ∧
    (∃ t, busStep (writeAt 0x7000 5) sccState = .next t ∧ (t.fsm == .writeHold && (writeAt 0x7000 5).wr) = true) :=
  ⟨nextIs_next (by decide +kernel), nextIs_next (by decide +kernel)⟩

/-- BusDrivenOnlyUnderRead: a served read. -/
theorem witness_BusDrivenOnlyUnderRead :
    CoreInv sccState ∧ ∃ t, busStep (readAt 0x4000) sccState = .next t ∧ dOE t = true :=
  ⟨witness_coreInv_scc, nextIs_next (by decide +kernel)⟩

/-- EventsTakenByRank: three simultaneous events. -/
theorem witness_EventsTakenByRank : ∃ s : State, s.inputs = (.sample 0 :: [.remove, .reset]) :: [[.bootStep]] :=
  ⟨{ sccState with inputs := [[.sample 0, .remove, .reset], [.bootStep]] }, rfl⟩

/-- HeaderRecordFields: each clause where they meet, at STORE_LEN one short of the record's end and at it. -/
theorem witness_HeaderRecordFields :
    (headerParams 0x10A 1 0 0).storeLen < 0x100 + (2 + 9) ∧
    (0x100 + (2 + 9) ≤ (headerParams 0x10B 1 0 0).storeLen ∧
      ∃ k < 2 + 9, Memory.read (headerParams 0x10B 1 0 0).store (0x100 + k) ≠ 0xFF) ∧
    (0x10B + (2 + 9) ≤ (headerParams 0x116 1 0 0).storeLen ∧
      ∀ k < 2 + 9, Memory.read (headerParams 0x116 1 0 0).store (0x10B + k) = 0xFF) := by
  decide +kernel

/-- The tags and schemes of R76, as BootServesValidRecord lists them. -/
def bootTags (p : Params) : List (Byte × Scheme) :=
  [(1, .flat16), (2, .flat32), (3, .scc), (4, .linear0), (5, .ascii8), (6, .ascii16), (7, .konami), (8, .neo8),
    (9, .neo16), (10, p.bridgeRomScheme)]

/-- BootServesValidRecord: B8 (the payload ends at STORE_LEN) and B9 (the active record after one of tag 0). -/
theorem witness_BootServesValidRecord :
    ((bootState (headerParams 0x10000 1 0 0xC0)).phase = .boot ∧
      (∀ j ≤ (headerParams 0x10000 1 0 0xC0).activeIndex, ∃ t z o, readRecord (headerParams 0x10000 1 0 0xC0) j = .valid t z o) ∧
      readRecord (headerParams 0x10000 1 0 0xC0) (headerParams 0x10000 1 0 0xC0).activeIndex = .valid 1 0x4000 0xC000 ∧
      ((1 : Byte), Scheme.flat16) ∈ bootTags (headerParams 0x10000 1 0 0xC0) ∧
      (0xC000 : U32).toNat + (0x4000 : U32).toNat ≤ (headerParams 0x10000 1 0 0xC0).storeLen) ∧
    ((∀ j ≤ secondParams.activeIndex, ∃ t z o, readRecord secondParams j = .valid t z o) ∧
      readRecord secondParams secondParams.activeIndex = .valid 6 0x10000 0 ∧
      ((6 : Byte), Scheme.ascii16) ∈ bootTags secondParams ∧ ((10 : Byte), Scheme.none) ∈ bootTags secondParams ∧ (0 : U32).toNat + (0x10000 : U32).toNat ≤ secondParams.storeLen) := by
  refine ⟨⟨rfl, fun j hj => ?_, by decide +kernel, by decide +kernel, by decide +kernel⟩, fun j hj => ?_, by decide +kernel⟩
  · have h : j = 0 := Nat.le_zero.mp hj
    subst h
    exact ⟨1, 0x4000, 0xC000, by decide +kernel⟩
  · have h : j = 0 ∨ j = 1 := by
      have h1 : j ≤ 1 := hj
      omega
    rcases h with rfl | rfl
    · exact ⟨0, 0x4000, 0xC000, by decide +kernel⟩
    · exact ⟨6, 0x10000, 0, by decide +kernel⟩

/-- BootHaltsOnFatalError: a missing record, a terminator, a tag on each side of the range, a payload one byte past the store. -/
theorem witness_BootHaltsOnFatalError :
    (bootState (headerParams 0x10A 1 0 0xC0)).phase = .boot ∧
    readRecord (headerParams 0x10A 1 0 0xC0) 0 = .missing ∧
    readRecord { headerParams 0x10000 1 0 0xC0 with activeIndex := 1 } 1 = .terminator ∧
    readRecord (headerParams 0x10000 0 0 0xC0) 0 = .valid 0 0x4000 0xC000 ∧
    readRecord (headerParams 0x10000 11 0 0xC0) 0 = .valid 11 0x4000 0xC000 ∧
    (readRecord (headerParams 0xFFFF 1 0 0xC0) 0 = .valid 1 0x4000 0xC000 ∧
      (headerParams 0xFFFF 1 0 0xC0).storeLen < (0xC000 : U32).toNat + (0x4000 : U32).toNat) := by
  decide +kernel

/-- StepKeepsInv, StepNeverStops: a served sample from a state of the invariant. -/
theorem witness_StepKeepsInv :
    CoreInv sccState ∧ CoreInv readingState ∧ ∃ t, step sccState = .next t :=
  ⟨witness_coreInv_scc, witness_coreInv_reading, _, rfl⟩

/-- ResolveReadsStore: the first and last payload offsets, the last staged and the first unstaged one. -/
theorem witness_ResolveReadsStore : StoreReady sccState ∧ ∀ off ∈ [0x10000, 0x10001, 0x10002, 0x2FFFF],
    sccState.cfg.romBase.toNat ≤ off ∧ off < sccState.cfg.romBase.toNat + sccState.cfg.romSize.toNat :=
  ⟨witness_storeReady.1, by decide +kernel⟩

/-- NoCycleWritesMemory, StepsLeaveStoreAndCache: a row that runs and a step from SERVE. -/
theorem witness_NoCycleWritesMemory :
    (∃ t, exec (.mwSccBank0 0 9) sccState = .next t) ∧
    (∃ t, step sccState = .next t) ∧ sccState.phase ≠ .boot ∧ (takeEvent sccState).1 ≠ .reset :=
  ⟨⟨_, rfl⟩, ⟨_, rfl⟩, by decide, by decide +kernel⟩

/-- FlatReadsDrivePayload, Segmented8KReadsDrivePayload, WideSegmentedReadsDrivePayload: a ready store, and
bank registers at the top of the 8-bit range. -/
theorem witness_reads :
    StoreReady (memState .flat16 0x4000 0 1 2 3) ∧
    StoreReady { sccState with bank := #v[255, 255, 255, 255, 0, 0] } ∧
    (∀ i : Fin 6, ({ sccState with bank := #v[255, 255, 255, 255, 0, 0] } : State).bank[i].toNat < 256) :=
  ⟨witness_storeReady.2, ⟨witness_storeReady.1.1, witness_storeReady.1.2⟩, by decide +kernel⟩

/-- ReadsServedExactlyInWindows: the first and last address inside, and those next to them outside. -/
theorem witness_ReadsServedExactlyInWindows :
    StoreReady sccState ∧
    (∀ a ∈ [0x4000, 0x9800, 0xBFFF], classify false (readAt a) = .memRead ∧ soundHit sccState (readAt a).a = false ∧
      inWindows sccState.cfg.scheme (readAt a).a = true) ∧
    (∀ a ∈ [0x0000, 0x3FFF, 0xC000, 0xFFFF], classify false (readAt a) = .memRead ∧ soundHit sccState (readAt a).a = false ∧
      inWindows sccState.cfg.scheme (readAt a).a = false) :=
  ⟨witness_storeReady.1, by decide +kernel, by decide +kernel⟩

/-- SoundRegionIsADraw: the region mapped, at its first and last address. -/
theorem witness_SoundRegionIsADraw :
    (memState .scc 0x20000 0 1 0xFF 3).cfg.scheme = .scc ∧ (memState .scc 0x20000 0 1 0xFF 3).bank[2] &&& 0x3F = 0x3F ∧
    ∀ a ∈ [0x9800, 0x9FFF], 0x9800 ≤ (BitVec.ofNat 16 a).toNat ∧ (BitVec.ofNat 16 a).toNat ≤ 0x9FFF := by
  decide +kernel

/-- SwitchRangesSelectRegisters: the ends of a range of each scheme, and the addresses next to them. -/
theorem witness_SwitchRangesSelectRegisters :
    ((memState .scc 0 0 1 2 3).cfg.scheme = .scc ∧ (memState .konami 0 0 1 2 3).cfg.scheme = .konami ∧
      (memState .ascii8 0 0 1 2 3).cfg.scheme = .ascii8 ∧ (memState .ascii16 0 0 1 2 3).cfg.scheme = .ascii16) ∧
    (∀ a ∈ [0x5000, 0x57FF], 0x5000 ≤ (BitVec.ofNat 16 a).toNat ∧ (BitVec.ofNat 16 a).toNat ≤ 0x57FF) ∧
    (∀ a ∈ [0x6000, 0x7FFF], 0x6000 ≤ (BitVec.ofNat 16 a).toNat ∧ (BitVec.ofNat 16 a).toNat ≤ 0x7FFF) ∧
    (∀ a ∈ [0x4FFF, 0x5800, 0x9800, 0xB800], ∀ e ∈ switchTable [] [] .scc,
      ¬(e.lo.toNat ≤ (BitVec.ofNat 16 a).toNat ∧ (BitVec.ofNat 16 a).toNat ≤ e.hi.toNat)) := by
  decide +kernel

/-- FineSwitchWritesOneLane: an entry of each lane, the tables meeting R84. -/
theorem witness_FineSwitchWritesOneLane :
    SwitchTableOk 6 testParams.neo8Switch ∧ (⟨0x5002, 0x5002, 1, .lo⟩ : SwitchEntry) ∈ testParams.neo8Switch ∧
    (⟨0x5003, 0x5003, 1, .hi⟩ : SwitchEntry) ∈ testParams.neo8Switch ∧
    SwitchTableOk 3 testParams.neo16Switch ∧ (⟨0x5004, 0x5004, 2, .lo⟩ : SwitchEntry) ∈ testParams.neo16Switch := by
  decide +kernel

/-- OnlySwitchWritesChangeBanks: a sample that changes a register. -/
theorem witness_OnlySwitchWritesChangeBanks :
    ∃ t, exec (decode (ctxOf sccState) (writeAt 0x7000 5)) sccState = .next t ∧ t.bank ≠ sccState.bank :=
  ⟨_, rfl, by decide +kernel⟩

/-- SwitchThenReadSeesBank: bank 2 of the SCC scheme at the ends of its range, with the byte that maps the
sound region read just below it and another byte read at the window's end; and bank 3 of KONAMI. -/
theorem witness_SwitchThenReadSeesBank :
    StoreReady sccState ∧ geometry sccState.cfg.scheme = some ⟨0x4000, 0x2000, 4, 8⟩ ∧
    (⟨0x9000, 0x97FF, 2, .all⟩ : SwitchEntry) ∈ switchTable sccState.par.neo8Switch sccState.par.neo16Switch sccState.cfg.scheme ∧
    (∀ aw ∈ [0x9000, 0x97FF], (0x9000 : Addr).toNat ≤ (BitVec.ofNat 16 aw).toNat ∧ (BitVec.ofNat 16 aw).toNat ≤ (0x97FF : Addr).toNat) ∧
    (∀ ar ∈ [0x8000, 0x97FF, 0x9FFF], 0x4000 + 2 * 0x2000 ≤ (BitVec.ofNat 16 ar).toNat ∧
      (BitVec.ofNat 16 ar).toNat < 0x4000 + (2 + 1) * 0x2000) ∧
    ¬(sccState.cfg.scheme = .scc ∧ (0x3F : Byte) &&& 0x3F = 0x3F ∧ inSoundRegion 0x97FF = true) ∧
    ¬(sccState.cfg.scheme = .scc ∧ (0x3E : Byte) &&& 0x3F = 0x3F ∧ inSoundRegion 0x9FFF = true) ∧
    (⟨0xA000, 0xBFFF, 3, .all⟩ : SwitchEntry) ∈ switchTable [] [] .konami := by
  refine ⟨witness_storeReady.1, ?_⟩
  decide +kernel

/-- The command statements: no operation pending, the device ready or not, and identities of 1, 2 and 512 bytes. -/
theorem witness_commands :
    pending sendingSession = false ∧ pending writtenSession = false ∧
    (bridgeState true sendingSession).dev.ready = true ∧ (bridgeState false sendingSession).dev.ready = false ∧
    (∀ id ∈ [[0x50], testParams.bridgeId, List.replicate 512 (0x50 : Byte)], 1 ≤ id.length ∧ id.length ≤ 512) := by
  decide +kernel

/-- ReadNextStartsNextBlock: an accepted start at the last block, a rejected one past it, and no read cursor. -/
theorem witness_ReadNextStartsNextBlock :
    (sendingSession.seqValid = true ∧ sendingSession.seqDir = .read ∧
      Accepts (bridgeState true { sendingSession with lba := 14 }) (14 + 1)) ∧
    ¬(sendingSession.seqValid = true ∧ sendingSession.seqDir = .read ∧
      Accepts (bridgeState true { sendingSession with lba := 15 }) (15 + 1)) ∧
    ¬(writtenSession.seqValid = true ∧ writtenSession.seqDir = .read) := by
  decide +kernel

/-- WriteNextCollectsNextBlock: a write cursor, and none. -/
theorem witness_WriteNextCollectsNextBlock :
    (writtenSession.seqValid = true ∧ writtenSession.seqDir = .write) ∧
    ¬(sendingSession.seqValid = true ∧ sendingSession.seqDir = .write) := by
  decide +kernel

/-- IgnoredCommandsOnlyHold: an operation pending, and the ends of each range of unrecognised bytes. -/
theorem witness_IgnoredCommandsOnlyHold : pending readingState.br = true ∧ pending writingState.br = true ∧
    (0x0A ≤ (0x0A : Byte).toNat ∧ 0x0A ≤ (0xFF : Byte).toNat ∧ ((0x04 : Byte) = 0x04)) := by decide +kernel

/-- DataReadConsumesOneByte: a byte in the middle, and the last of 512. -/
theorem witness_DataReadConsumesOneByte :
    (sendingSession.buf.bytes[sendingSession.cursor]? = some 0x25 ∧ 1 ≤ sendingSession.remaining) ∧
    (zeroBuffer.bytes[511]? = some 0x00 ∧ ({ sendingSession with buf := zeroBuffer, cursor := 511, remaining := 1 } : Bridge).remaining = 1) := by
  decide +kernel

/-- AddressBytesAssembleLba: a byte before the fourth, and the fourth in each direction, in range and out of it. -/
theorem witness_AddressBytesAssembleLba :
    (addressSession.state = .awaitAddr ∧ ({ addressSession with addrCount := 2 } : Bridge).addrCount < 3) ∧
    (addressSession.addrCount = 3 ∧ addressSession.dir = .read ∧
      Accepts (bridgeState true addressSession) (addressSession.lba ||| ((0x00 : Byte).setWidth 32 <<< (8 * 3)))) ∧
    ¬Accepts (bridgeState true addressSession) (addressSession.lba ||| ((0x01 : Byte).setWidth 32 <<< (8 * 3))) ∧
    ({ addressSession with dir := .write } : Bridge).dir = .write := by
  decide +kernel

/-- PayloadBytesFillBuffer: the byte before the last, and the last, with its LBA in range and out of it. -/
theorem witness_PayloadBytesFillBuffer :
    payloadSession.state = .awaitPayload ∧ ({ payloadSession with cursor := 510 } : Bridge).cursor < 511 ∧
    payloadSession.cursor = 511 ∧ (payloadSession.buf.put 511 0xA5).bytes = payloadSession.buf.bytes.set 511 0xA5 ∧
    Accepts (bridgeState true payloadSession) payloadSession.lba ∧
    ¬Accepts (bridgeState true { payloadSession with lba := 16 }) 16 := by
  decide +kernel

/-- DataPortOutOfPhase: a session in no data phase. -/
theorem witness_DataPortOutOfPhase :
    (bridgeState true resetBridge).cfg.bridgeEn = true ∧ testParams.dataPort ≠ testParams.ctrlPort ∧
    resetBridge.state ≠ .sending ∧ resetBridge.state ≠ .awaitAddr ∧ resetBridge.state ≠ .awaitPayload := by
  decide +kernel

/-- FourAddressBytesAreLittleEndian: the start of a write's address phase. -/
theorem witness_FourAddressBytesAreLittleEndian : ∃ br : Bridge,
    br.state = .awaitAddr ∧ br.dir = .write ∧ br.addrCount = 0 ∧ br.lba = 0 :=
  ⟨{ resetBridge with state := .awaitAddr, dir := .write }, rfl, rfl, rfl, rfl⟩

/-- PayloadPhaseStartsWrite: the start of the payload phase of the last block. -/
theorem witness_PayloadPhaseStartsWrite : ∃ s : State, ∃ ds : List Byte,
    s.br.state = .awaitPayload ∧ s.br.cursor = 0 ∧ ds.length = 512 ∧ Accepts s s.br.lba :=
  ⟨bridgeState true { payloadSession with cursor := 0, lba := 15 }, List.replicate 512 0xA5, rfl, rfl,
    List.length_replicate, by decide +kernel⟩

/-- DataReadsReturnResponse: some and all of the bytes left. -/
theorem witness_DataReadsReturnResponse :
    sendingSession.state = .sending ∧ 1 ≤ sendingSession.remaining ∧ sendingSession.cursor + sendingSession.remaining ≤ 512 ∧
    (∀ n ∈ [0, 1, 509, 510], n ≤ sendingSession.remaining) := by
  decide +kernel

/-- ReadNextMatchesExplicitRead: a completed read with the next block in range. -/
theorem witness_ReadNextMatchesExplicitRead :
    pending sendingSession = false ∧ sendingSession.seqValid = true ∧ sendingSession.seqDir = .read ∧
    le32 0x06 0x00 0x00 0x00 = sendingSession.lba + 1 ∧ Accepts (bridgeState true sendingSession) (sendingSession.lba + 1) := by
  decide +kernel

/-- StartAcceptsInRange: the last block, the first past it, and an operation in flight. -/
theorem witness_StartAcceptsInRange :
    Accepts (bridgeState true resetBridge) 15 ∧ ¬Accepts (bridgeState true resetBridge) 16 ∧ ¬Accepts readingState 0 := by
  decide +kernel

/-- CompleteRecordsOutcome, BusLeavesBufferInFlight: an operation in flight, and a poll then. -/
theorem witness_CompleteRecordsOutcome :
    readingState.co.inFlight = true ∧ CoreInv readingState ∧ ∃ t, busStep (portRead (ctxOf readingState) 0x60) readingState = .next t :=
  ⟨rfl, witness_coreInv_reading, _, rfl⟩

/-- MountStartsClean, RemoveDropsSession, OtherDeviceEventsLeaveCore: devices absent and ready. -/
theorem witness_device_events :
    ((bridgeState false resetBridge).cfg.bridgeEn = true ∧ (bridgeState false resetBridge).dev.ready = false) ∧
    (readingState.cfg.bridgeEn = true ∧ readingState.dev.ready = true) ∧
    (sccState.phase = .serve ∧ sccState.cfg.bridgeEn = false ∧ sccState.dev.ready = false ∧ sccState.co.inFlight = false) ∧
    (({ sccState with dev := ⟨true, 16⟩ } : State).cfg.bridgeEn = false ∧ ({ sccState with dev := ⟨true, 16⟩ } : State).dev.ready = true) := by
  decide +kernel

/-- MalformedStatesStopByName: a state of each clause at its boundary. -/
theorem witness_MalformedStatesStopByName :
    (512 ≤ ({ sendingSession with cursor := 512 } : Bridge).cursor ∧ ({ sendingSession with remaining := 0 } : Bridge).remaining = 0) ∧
    (addressSession.state = .awaitAddr ∧ 4 ≤ ({ addressSession with addrCount := 4 } : Bridge).addrCount) ∧
    (payloadSession.state = .awaitPayload ∧ 512 ≤ ({ payloadSession with cursor := 512 } : Bridge).cursor) ∧
    (({ sccState with co := ⟨false, .ready, .read, 0⟩ } : State).co.result = .ready ∧ pending sccState.br = false) ∧
    (0x1FFFF < sccState.cfg.romSize.toNat ∧ sccState.cfg.stagedLen.toNat ≤ 0x1FFFF ∧
      ({ testParams with storeLen := 0x2FFFF } : Params).storeLen ≤ sccState.cfg.romBase.toNat + 0x1FFFF) := by
  decide +kernel

end Sys2Proof.Tests
end

section
/-! PROOFS of the family 10_state.md: the outputs, the states that stop by name, what a decoded row can do, and
the machine's invariant over every event. -/

namespace Sys2Proof.Machine

/-! ## The outputs -/

/-- R20: the data bus is driven exactly in SERVE with the FSM in READ_HOLD. -/
theorem dOE_iff (s : State) : dOE s = true ↔ s.phase = .serve ∧ s.fsm = .readHold := by simp [dOE]

/-- R20: WAIT is active exactly in BOOT. -/
theorem waitAct_iff (s : State) : waitAct s = true ↔ s.phase = .boot := by simp [waitAct]

/-- Settles O16, from what each output is on. -/
theorem outputsFollowState : Obligations.OutputsFollowState := fun s =>
  ⟨dOE_iff s, fun h => if_pos h, fun h => if_neg (by simp [h]), waitAct_iff s⟩

/-! ## The states that stop by name -/

/-- A response read past the buffer, or with nothing remaining, stops (R39 item 4). -/
theorem sendingCycle_malformed {s : State} (h : 512 ≤ s.br.cursor ∨ s.br.remaining = 0) :
    sendingCycle s = .fault .malformedState := by
  unfold sendingCycle
  split
  · rename_i b hb
    have hc : s.br.cursor < 512 := s.br.buf.size ▸ (List.getElem?_eq_some_iff.1 hb).1
    exact if_pos (by omega)
  · rfl

/-- A fifth address byte stops (R39 item 5). -/
theorem addrByte_malformed {s : State} (h : 4 ≤ s.br.addrCount) (d : Byte) :
    addrByte d s = .fault .malformedState := by
  rw [addrByte, if_neg (by omega), if_neg (by omega)]

/-- A 513th payload byte stops (R39 item 5). -/
theorem payloadByte_malformed {s : State} (h : 512 ≤ s.br.cursor) (d : Byte) :
    payloadByte d s = .fault .malformedState := by
  rw [payloadByte, if_neg (by omega), if_neg (by omega)]

/-- A READY result that no pending session waits for stops (R39 item 2). -/
theorem absorb_malformed {s : State} (hf : s.co.inFlight = false) (hr : s.co.result = .ready)
    (hp : pending s.br = false) : absorb s = .fault .malformedState := by
  cases hs : s.br.state with
  | readPending => simp [pending, hs] at hp
  | writePending => simp [pending, hs] at hp
  | _ => simp [absorb, hf, hr, hs]

/-- A bounded read at or past STORE_LEN, with no staged byte for it, stops (R140). -/
theorem serveRead_storeRange {s : State} {rel : Nat} (hr : rel < s.cfg.romSize.toNat)
    (hc : s.cfg.stagedLen.toNat ≤ rel) (hl : s.par.storeLen ≤ s.cfg.romBase.toNat + rel) :
    serveRead (bounded s rel) s = .fault .storeRange := by
  have hres : resolve s (s.cfg.romBase.toNat + rel) = none := by
    rw [resolve, Nat.add_sub_cancel_left, if_neg (by omega), storeRead, if_neg (by omega)]
  simp only [bounded, if_pos hr, serveRead, hres]

/-- A data-port write in AWAIT_ADDR is an address byte (R184, R185). -/
theorem dataWriteCycle_awaitAddr {s : State} (h : s.br.state = .awaitAddr) (d : Byte) :
    dataWriteCycle d s = addrByte d s := by simp only [dataWriteCycle, h]

/-- A data-port write in AWAIT_PAYLOAD is a payload byte (R184, R187). -/
theorem dataWriteCycle_awaitPayload {s : State} (h : s.br.state = .awaitPayload) (d : Byte) :
    dataWriteCycle d s = payloadByte d s := by simp only [dataWriteCycle, h]

/-- Settles O60, one lemma for each kind of malformed state. -/
theorem malformedStatesStopByName : Obligations.MalformedStatesStopByName := fun _ d _ =>
  ⟨fun h => sendingCycle_malformed h,
    fun hs h => (dataWriteCycle_awaitAddr hs d).trans (addrByte_malformed h d),
    fun hs h => (dataWriteCycle_awaitPayload hs d).trans (payloadByte_malformed h d),
    fun hf hr hp => absorb_malformed hf hr hp, fun hr hc hl => serveRead_storeRange hr hc hl⟩

/-! ## The session and the coordinator -/

/-- R34: no operation is in flight and no result waits. -/
structure CoordQuiet (co : Coord) : Prop where
  idle : co.inFlight = false
  noResult : co.result = .none

/-- The part of the invariant that ties session, coordinator and device to each other (R39 items 1 to 5, R66, R211).
The fields have the names of those of `CoreInv`. -/
structure SessionOk (br : Bridge) (co : Coord) (dev : Device) : Prop where
  oneOutcome : co.inFlight = true → co.result = .none
  pendingIff : pending br = true ↔ (co.inFlight = true ∨ co.result ≠ .none)
  pendingOp : pending br = true → br.state = pendingState co.op ∧ br.lba = co.opLba
  status : statusFits br.state br.status = true
  sending : br.state = .sending → 1 ≤ br.remaining ∧ br.cursor + br.remaining ≤ 512
  payload : br.state = .awaitPayload → br.cursor < 512
  address : br.state = .awaitAddr → br.addrCount < 4
  inRange : co.inFlight = true → dev.ready = true ∧ co.opLba.toNat < dev.capacity.toNat

/-- The invariant holds of session, coordinator and device. -/
theorem sessionOk_of_coreInv {s : State} (h : CoreInv s) : SessionOk s.br s.co s.dev := { h with }

/-- While the session is not pending, the coordinator is quiet (R39 item 2). -/
theorem coordQuiet_of_not_pending {s : State} (h : CoreInv s) (hp : pending s.br = false) : CoordQuiet s.co := by
  have hn : ¬(s.co.inFlight = true ∨ s.co.result ≠ .none) := h.pendingIff.not.1 (by simp [hp])
  simp only [not_or, Bool.not_eq_true, ne_eq, not_not] at hn
  exact ⟨hn.1, hn.2⟩

/-- Outside SERVE of configuration 10 the coordinator is quiet. -/
theorem coordQuiet_of_coreInv {s : State} (h : CoreInv s) (hs : ¬(s.phase = .serve ∧ s.cfg.bridgeEn = true)) :
    CoordQuiet s.co := ⟨(h.quietCoord hs).1, (h.quietCoord hs).2⟩

/-- Beside a quiet coordinator a session is consistent when it is not pending and fits its own state. -/
theorem sessionOk_of_quiet {br : Bridge} {co : Coord} {dev : Device} (hc : CoordQuiet co) (hp : pending br = false)
    (status : statusFits br.state br.status = true)
    (sending : br.state = .sending → 1 ≤ br.remaining ∧ br.cursor + br.remaining ≤ 512)
    (payload : br.state = .awaitPayload → br.cursor < 512)
    (address : br.state = .awaitAddr → br.addrCount < 4) : SessionOk br co dev where
  oneOutcome := fun _ => hc.noResult
  pendingIff := by simp [hp, hc.idle, hc.noResult]
  pendingOp := by simp [hp]
  status := status
  sending := sending
  payload := payload
  address := address
  inRange := by simp [hc.idle]

/-- An idle session is consistent with a quiet coordinator when its status is Ready or Error. -/
theorem sessionOk_idle {br : Bridge} {co : Coord} {dev : Device} (hc : CoordQuiet co) (hs : br.state = .idle)
    (hst : br.status = statusReady ∨ br.status = statusError) : SessionOk br co dev :=
  sessionOk_of_quiet hc (by simp [pending, hs]) (by simpa [statusFits, hs] using hst)
    (by simp [hs]) (by simp [hs]) (by simp [hs])

/-- A session that starts sending is consistent when its response lies in the buffer. -/
theorem sessionOk_sending {br : Bridge} {co : Coord} {dev : Device} (hc : CoordQuiet co) (hs : br.state = .sending)
    (hst : br.status = statusSending) (hr : 1 ≤ br.remaining ∧ br.cursor + br.remaining ≤ 512) : SessionOk br co dev :=
  sessionOk_of_quiet hc (by simp [pending, hs]) (by simp [statusFits, hs, hst])
    (fun _ => hr) (by simp [hs]) (by simp [hs])

/-- A session in the payload phase is consistent while bytes are missing. -/
theorem sessionOk_awaitPayload {br : Bridge} {co : Coord} {dev : Device} (hc : CoordQuiet co)
    (hs : br.state = .awaitPayload) (hst : br.status = statusReady) (hk : br.cursor < 512) : SessionOk br co dev :=
  sessionOk_of_quiet hc (by simp [pending, hs]) (by simp [statusFits, hs, hst])
    (by simp [hs]) (fun _ => hk) (by simp [hs])

/-- A session in the address phase is consistent while bytes are missing. -/
theorem sessionOk_awaitAddr {br : Bridge} {co : Coord} {dev : Device} (hc : CoordQuiet co)
    (hs : br.state = .awaitAddr) (hst : br.status = statusReady) (hk : br.addrCount < 4) : SessionOk br co dev :=
  sessionOk_of_quiet hc (by simp [pending, hs]) (by simp [statusFits, hs, hst])
    (by simp [hs]) (by simp [hs]) (fun _ => hk)

/-- R182, R211: an accepted operation leaves a consistent pending session. -/
theorem sessionOk_issued {s : State} {lba : U32} (h : Accepts s lba) (kind : Dir) (br : Bridge) :
    SessionOk { br with lba := lba, state := pendingState kind, status := statusBusy } ⟨true, .none, kind, lba⟩ s.dev := by
  obtain ⟨-, hready, hcap⟩ := h
  cases kind <;> exact
    { oneOutcome := fun _ => rfl
      pendingIff := by simp [pending, pendingState]
      pendingOp := fun _ => ⟨rfl, rfl⟩
      status := rfl
      sending := nofun
      payload := nofun
      address := nofun
      inRange := fun _ => ⟨hready, hcap⟩ }

/-- `u` is `s` with at most session and coordinator replaced, and under `P` the two are consistent in it. -/
def SessionStep (P : Prop) (s u : State) : Prop :=
  ∃ br co, u = setBridge br (setCoord co s) ∧ (P → SessionOk br co s.dev)

/-- A step of the session under a weaker premise is one under a stronger. -/
theorem SessionStep.mono {P Q : Prop} {s u : State} (h : SessionStep P s u) (hPQ : Q → P) : SessionStep Q s u := by
  obtain ⟨br, co, hu, hok⟩ := h
  exact ⟨br, co, hu, fun q => hok (hPQ q)⟩

/-- A session replaced first makes no difference. -/
theorem SessionStep.of_setBridge {P : Prop} {s u : State} {br : Bridge} (h : SessionStep P (setBridge br s) u) :
    SessionStep P s u := h

/-- A session replaced alone. -/
theorem SessionStep.bridge {P : Prop} {s : State} {br : Bridge} (h : P → SessionOk br s.co s.dev) :
    SessionStep P s (setBridge br s) := ⟨br, s.co, rfl, h⟩

/-- R182: `Fail` beside a quiet coordinator. -/
theorem failOp_session (s : State) : SessionStep (CoordQuiet s.co) s (failOp s) :=
  .bridge fun hq => sessionOk_idle hq rfl (.inr rfl)

/-- R182: `Issue` beside a quiet coordinator. -/
theorem issue_session (kind : Dir) (lba : U32) (s : State) :
    SessionStep (CoordQuiet s.co) s (issue kind lba s) := by
  by_cases h : Accepts s lba
  · rw [issue_accepted h]
    exact ⟨_, _, rfl, fun _ => sessionOk_issued h kind s.br⟩
  · rw [issue_rejected h]
    exact failOp_session s

/-! ## The port rows -/

/-- What a command's body may rely on: the parameters, and a coordinator at rest. -/
structure CommandReady (s : State) : Prop where
  params : ParamsOk s.par
  quiet : CoordQuiet s.co

/-- R174: INIT leaves the session idle, Ready or Error by the device. -/
theorem cmdInit_session (s : State) : SessionStep (CommandReady s) s (cmdInit s) :=
  .bridge fun h => sessionOk_idle h.quiet rfl (by cases s.dev.ready <;> simp)

/-- R135, R176: the identity fits the buffer. -/
theorem cmdGetId_session (s : State) : SessionStep (CommandReady s) s (cmdGetId s) :=
  .bridge fun h => sessionOk_sending h.quiet rfl rfl (by simpa [sendBridge] using h.params.idLength)

/-- R177: GET_CAP sends four bytes, or fails without a device. -/
theorem cmdGetCap_session (s : State) : SessionStep (CommandReady s) s (cmdGetCap s) := by
  unfold cmdGetCap
  split
  · exact .bridge fun h => sessionOk_sending h.quiet rfl rfl (by simp [sendBridge, le32Bytes])
  · exact (failOp_session s).mono CommandReady.quiet

/-- R178, R180: a block command opens the address phase with no byte received. -/
theorem cmdBlock_session (dir : Dir) (s : State) : SessionStep (CommandReady s) s (cmdBlock dir s) :=
  .bridge fun h => sessionOk_awaitAddr h.quiet rfl rfl (Nat.zero_lt_succ 3)

/-- R179: READ_NEXT issues the next read, or fails. -/
theorem cmdReadNext_session (v : Bool) (dir : Dir) (s : State) :
    SessionStep (CommandReady s) s (cmdReadNext v dir s) := by
  unfold cmdReadNext
  split
  · exact (issue_session .read _ s).mono CommandReady.quiet
  · exact (failOp_session s).mono CommandReady.quiet

/-- R181: WRITE_NEXT opens the payload phase with no byte received, or fails. -/
theorem cmdWriteNext_session (v : Bool) (dir : Dir) (s : State) :
    SessionStep (CommandReady s) s (cmdWriteNext v dir s) := by
  unfold cmdWriteNext
  split
  · exact .bridge fun h => sessionOk_awaitPayload h.quiet rfl rfl (Nat.zero_lt_succ 511)
  · exact (failOp_session s).mono CommandReady.quiet

/-- The state as it is is a step of the session. -/
theorem SessionStep.refl (s : State) : SessionStep (CoreInv s) s s :=
  ⟨s.br, s.co, rfl, sessionOk_of_coreInv⟩

/-- What a recognised command can do, given what its body does (R158, R170, R171). -/
theorem commandCycle_session {d : Byte} {body : Bool → Dir → State → State} {s t : State}
    (hb : ∀ v dir u, SessionStep (CommandReady u) u (body v dir u)) (h : commandCycle d body s = .next t) :
    ∃ u, t = holdWrite u ∧ SessionStep (CoreInv s) s u := by
  cases hp : pending s.br with
  | true =>
    rw [commandCycle_pending hp] at h
    exact ⟨s, (Host.Outcome.next.inj h).symm, .refl s⟩
  | false =>
    rw [commandCycle_runs hp] at h
    have hready : CoreInv s → CommandReady (setBridge (takeCommand d s.br) s) := fun hi =>
      ⟨hi.params, coordQuiet_of_not_pending (s := s) hi hp⟩
    exact ⟨_, (Host.Outcome.next.inj h).symm, ((hb _ _ _).mono hready).of_setBridge⟩

/-- What a control-port write of the bridge can do (R170 to R183). -/
theorem exec_decodeCommand_session {d : Byte} {s t : State} (h : exec (decodeCommand d) s = .next t) :
    ∃ u, t = holdWrite u ∧ SessionStep (CoreInv s) s u := by
  unfold decodeCommand at h
  split at h
  · exact commandCycle_session (fun _ _ => cmdInit_session) h
  · exact commandCycle_session (fun _ _ => cmdGetId_session) h
  · exact commandCycle_session (fun _ _ => cmdGetCap_session) h
  · exact commandCycle_session (fun _ _ => cmdBlock_session .read) h
  · exact commandCycle_session cmdReadNext_session h
  · exact commandCycle_session (fun _ _ => cmdBlock_session .write) h
  · exact commandCycle_session cmdWriteNext_session h
  · exact ⟨s, (Host.Outcome.next.inj h).symm, .refl s⟩

/-- R186: the end of the address phase. -/
theorem endAddr_session (s : State) : SessionStep (CoordQuiet s.co) s (endAddr s) := by
  unfold endAddr
  split
  · exact issue_session .read _ s
  · exact .bridge fun hq => sessionOk_awaitPayload hq rfl rfl (Nat.zero_lt_succ 511)

/-- In a state that is not pending the invariant gives a quiet coordinator. -/
theorem coordQuiet_of_state {s : State} {st : BrState} (hs : s.br.state = st) (hr : st ≠ .readPending)
    (hw : st ≠ .writePending) (h : CoreInv s) : CoordQuiet s.co :=
  coordQuiet_of_not_pending h (by simp [pending, hs, hr, hw])

/-- What an address byte can do (R185, R186). -/
theorem addrByte_session {d : Byte} {s t : State} (hs : s.br.state = .awaitAddr) (h : addrByte d s = .next t) :
    ∃ u, t = holdWrite u ∧ SessionStep (CoreInv s) s u := by
  have hquiet : CoreInv s → CoordQuiet s.co := coordQuiet_of_state hs nofun nofun
  unfold addrByte at h
  split at h
  · rename_i hk
    refine ⟨_, (Host.Outcome.next.inj h).symm, .bridge fun hi => ?_⟩
    have hst : s.br.status = statusReady := by simpa [statusFits, hs] using hi.status
    exact sessionOk_awaitAddr (hquiet hi) hs hst (Nat.succ_lt_succ hk)
  · split at h
    · exact ⟨_, (Host.Outcome.next.inj h).symm,
        ((endAddr_session (setBridge (addrBridge d s.br) s)).mono hquiet).of_setBridge⟩
    · cases h

/-- What a payload byte can do (R187, R188). -/
theorem payloadByte_session {d : Byte} {s t : State} (hs : s.br.state = .awaitPayload)
    (h : payloadByte d s = .next t) : ∃ u, t = holdWrite u ∧ SessionStep (CoreInv s) s u := by
  have hquiet : CoreInv s → CoordQuiet s.co := coordQuiet_of_state hs nofun nofun
  unfold payloadByte at h
  split at h
  · rename_i hk
    refine ⟨_, (Host.Outcome.next.inj h).symm, .bridge fun hi => ?_⟩
    have hst : s.br.status = statusReady := by simpa [statusFits, hs] using hi.status
    exact sessionOk_awaitPayload (hquiet hi) hs hst (Nat.succ_lt_succ hk)
  · split at h
    · exact ⟨_, (Host.Outcome.next.inj h).symm,
        ((issue_session .write _ (setBridge (payloadBridge d s.br) s)).mono hquiet).of_setBridge⟩
    · cases h

/-- What a data-port write of the bridge can do (R184 to R189). -/
theorem dataWriteCycle_session {d : Byte} {s t : State} (h : dataWriteCycle d s = .next t) :
    ∃ u, t = holdWrite u ∧ SessionStep (CoreInv s) s u := by
  cases hs : s.br.state with
  | awaitAddr => exact addrByte_session hs ((dataWriteCycle_awaitAddr hs d).symm.trans h)
  | awaitPayload => exact payloadByte_session hs ((dataWriteCycle_awaitPayload hs d).symm.trans h)
  | _ =>
    simp only [dataWriteCycle, hs] at h
    exact ⟨s, (Host.Outcome.next.inj h).symm, .refl s⟩

/-- What an I/O write row can do: nothing, or a bridge access held for WR (R158). -/
theorem exec_decodeIoWrite_cases {a : Addr} {d : Byte} {s t : State}
    (h : exec (decodeIoWrite (ctxOf s) a d) s = .next t) :
    t = s ∨ (s.cfg.bridgeEn = true ∧ ∃ u, t = holdWrite u ∧ SessionStep (CoreInv s) s u) := by
  unfold decodeIoWrite at h
  split at h
  · exact .inl (Host.Outcome.next.inj h).symm
  · rename_i hb
    have hb : s.cfg.bridgeEn = true := by simpa [ctxOf] using hb
    split at h
    · exact .inr ⟨hb, exec_decodeCommand_session h⟩
    · split at h
      · exact .inr ⟨hb, dataWriteCycle_session h⟩
      · exact .inl (Host.Outcome.next.inj h).symm

/-- R196: one byte of a response sent leaves a consistent session. -/
theorem sessionOk_sentBridge {s : State} (h : CoreInv s) (hs : s.br.state = .sending) :
    SessionOk (sentBridge s.br) s.co s.dev := by
  have hquiet : CoordQuiet s.co := coordQuiet_of_state hs nofun nofun h
  obtain ⟨hr, hc⟩ := h.sending hs
  unfold sentBridge
  split
  · exact sessionOk_idle hquiet rfl (.inl rfl)
  · have hst : s.br.status = statusSending := by simpa [statusFits, hs] using h.status
    exact sessionOk_sending hquiet hs hst ⟨by dsimp only; omega, by dsimp only; omega⟩

/-- What a data-port read in SENDING can do (R196). -/
theorem sendingCycle_session {s t : State} (hs : s.br.state = .sending) (h : sendingCycle s = .next t) :
    ∃ b br, t = drive b (setBridge br s) ∧ (CoreInv s → SessionOk br s.co s.dev) := by
  unfold sendingCycle at h
  split at h
  · split at h
    · cases h
    · exact ⟨_, _, (Host.Outcome.next.inj h).symm, fun hi => sessionOk_sentBridge hi hs⟩
  · cases h

/-- What an I/O read row can do: nothing, or a byte driven, one of a response consumed (R158, R195 to R197). -/
theorem exec_decodeIoRead_cases {a : Addr} {s t : State} (h : exec (decodeIoRead (ctxOf s) a) s = .next t) :
    t = s ∨ ∃ b br, t = drive b (setBridge br s) ∧ (CoreInv s → SessionOk br s.co s.dev) := by
  unfold decodeIoRead at h
  split at h
  · exact .inl (Host.Outcome.next.inj h).symm
  · split at h
    · exact .inr ⟨_, s.br, (Host.Outcome.next.inj h).symm, sessionOk_of_coreInv⟩
    · split at h
      · split at h
        · rename_i hs
          exact .inr (sendingCycle_session (by simpa [ctxOf] using hs) h)
        · exact .inr ⟨_, s.br, (Host.Outcome.next.inj h).symm, sessionOk_of_coreInv⟩
      · exact .inl (Host.Outcome.next.inj h).symm

/-! ## The memory rows -/

/-- A memory read row is a served read of some result of the mapper (R110, R152). -/
theorem exec_decodeMemRead (c : Ctx) (a : Addr) (s : State) : ∃ r, exec (decodeMemRead c a) s = serveRead r s := by
  unfold decodeMemRead
  repeat' split
  all_goals first
    | exact ⟨.none, rfl⟩
    | exact ⟨.unspec, rfl⟩
    | exact ⟨bounded s _, rfl⟩

/-- The switch table of the machine's scheme (R82 to R84). -/
abbrev switches (s : State) : List SwitchEntry :=
  switchTable s.par.neo8Switch s.par.neo16Switch s.cfg.scheme

/-- R116, R154: the row `i` commits the byte `d` through the entry `e` of the switch table, which holds `a`. -/
structure SwitchesBy (s : State) (a : Addr) (d : Byte) (i : Instr) (e : SwitchEntry) : Prop where
  mem : e ∈ switches s
  first : e.lo.toNat ≤ a.toNat
  last : a.toNat ≤ e.hi.toNat
  runs : exec i s = switchCycle (bankWidth s.cfg.scheme) e.reg e.lane d s

/-- A switch row of a fixed table: entry `j` is the aligned block number `k` of `size` addresses (R83). -/
theorem switchesBy_of_block {s : State} {sch : Scheme} (hs : s.cfg.scheme = sch) {a : Addr} {d : Byte} {i : Instr}
    {size k : Nat} (hk : a.toNat / size = k) (j : Nat) {e : SwitchEntry}
    (hj : (switchTable s.par.neo8Switch s.par.neo16Switch sch)[j]? = some e)
    (hlo : e.lo.toNat = k * size) (hhi : e.hi.toNat + 1 = k * size + size)
    (runs : exec i s = switchCycle (bankWidth sch) e.reg e.lane d s) (hsize : 0 < size := by decide) :
    ∃ e, SwitchesBy s a d i e := by
  subst hs
  have hdiv := Nat.div_add_mod a.toNat size
  have hmod := Nat.mod_lt a.toNat hsize
  rw [hk, Nat.mul_comm] at hdiv
  exact ⟨e, List.mem_of_getElem? hj, by omega, by omega, runs⟩

/-- A switch row of a table given as a parameter: the entry is the one found (R84, R131, R133). -/
theorem switchesBy_of_find {s : State} {sch : Scheme} (hs : s.cfg.scheme = sch) {a : Addr} {d : Byte} {i : Instr}
    (hf : (findEntry (switchTable s.par.neo8Switch s.par.neo16Switch sch) a).isSome = true) (hw : bankWidth sch = 12)
    (runs : exec i s = tableCycle (switchTable s.par.neo8Switch s.par.neo16Switch sch) a d s) :
    ∃ e, SwitchesBy s a d i e := by
  subst hs
  obtain ⟨e, he⟩ := Option.isSome_iff_exists.1 hf
  obtain ⟨mem, first, last⟩ := mem_of_findEntry he
  exact ⟨e, mem, first, last, by rw [runs, hw, tableCycle, he]⟩

/-- A memory write row changes nothing, or commits the byte through the entry of the scheme's switch table that
holds the address (R116, R117, R123 to R133). -/
theorem exec_decodeMemWrite (s : State) (a : Addr) (d : Byte) :
    exec (decodeMemWrite (ctxOf s) a d) s = .next s ∨ ∃ e, SwitchesBy s a d (decodeMemWrite (ctxOf s) a d) e := by
  cases hs : s.cfg.scheme with
  | scc =>
    simp only [decodeMemWrite, show (ctxOf s).scheme = .scc from hs]
    split
    · exact .inl rfl
    · split
      next hk => exact .inr (switchesBy_of_block hs hk 0 rfl rfl rfl rfl)
      next hk => exact .inr (switchesBy_of_block hs hk 1 rfl rfl rfl rfl)
      next hk => exact .inr (switchesBy_of_block hs hk 2 rfl rfl rfl rfl)
      next hk => exact .inr (switchesBy_of_block hs hk 3 rfl rfl rfl rfl)
      next => exact .inl rfl
  | ascii8 =>
    simp only [decodeMemWrite, show (ctxOf s).scheme = .ascii8 from hs]
    split
    next hk => exact .inr (switchesBy_of_block hs hk 0 rfl rfl rfl rfl)
    next hk => exact .inr (switchesBy_of_block hs hk 1 rfl rfl rfl rfl)
    next hk => exact .inr (switchesBy_of_block hs hk 2 rfl rfl rfl rfl)
    next hk => exact .inr (switchesBy_of_block hs hk 3 rfl rfl rfl rfl)
    next => exact .inl rfl
  | ascii16 =>
    simp only [decodeMemWrite, show (ctxOf s).scheme = .ascii16 from hs]
    split
    next hk => exact .inr (switchesBy_of_block hs hk 0 rfl rfl rfl rfl)
    next hk => exact .inr (switchesBy_of_block hs hk 1 rfl rfl rfl rfl)
    next => exact .inl rfl
  | konami =>
    simp only [decodeMemWrite, show (ctxOf s).scheme = .konami from hs]
    split
    next hk => exact .inr (switchesBy_of_block hs hk 0 rfl rfl rfl rfl)
    next hk => exact .inr (switchesBy_of_block hs hk 1 rfl rfl rfl rfl)
    next hk => exact .inr (switchesBy_of_block hs hk 2 rfl rfl rfl rfl)
    next => exact .inl rfl
  | neo8 =>
    simp only [decodeMemWrite, show (ctxOf s).scheme = .neo8 from hs]
    split
    next hf => exact .inr (switchesBy_of_find hs hf rfl rfl)
    next => exact .inl rfl
  | neo16 =>
    simp only [decodeMemWrite, show (ctxOf s).scheme = .neo16 from hs]
    split
    next hf => exact .inr (switchesBy_of_find hs hf rfl rfl)
    next => exact .inl rfl
  | flat16 | flat32 | linear0 | none =>
    rw [show decodeMemWrite (ctxOf s) a d = .mwOther a d by simp only [decodeMemWrite, ctxOf, hs]]
    exact .inl rfl

/-! ## What a decoded row can do -/

/-- R150 to R158: what the row a sample decodes to can make of `s`. -/
inductive SampleEffect (snap : Snapshot) (s t : State) : Prop where
  | ignored (h : t = s)
  | served (r : ReadResult) (h : serveRead r s = .next t)
  | switched (e : SwitchEntry) (hclass : classify s.par.ioNeedsSlot snap = .memWrite) (mem : e ∈ switches s)
      (first : e.lo.toNat ≤ snap.a.toNat) (last : snap.a.toNat ≤ e.hi.toNat)
      (h : t = holdWrite (setBank e.reg (laneValue (bankWidth s.cfg.scheme) e.lane s.bank[e.reg] snap.d) s))
  | portRead (b : Byte) (br : Bridge) (h : t = drive b (setBridge br s)) (hok : CoreInv s → SessionOk br s.co s.dev)
  | portWrite (u : State) (hb : s.cfg.bridgeEn = true) (h : t = holdWrite u) (hu : SessionStep (CoreInv s) s u)

/-- The row a sample decodes to has one of these effects whenever it answers a next state. -/
theorem sampleEffect_of_exec {snap : Snapshot} {s t : State} (h : exec (decode (ctxOf s) snap) s = .next t) :
    SampleEffect snap s t := by
  cases hclass : classify s.par.ioNeedsSlot snap with
  | noise =>
    simp only [decode, show classify (ctxOf s).ioNeedsSlot snap = .noise from hclass] at h
    exact .ignored (Host.Outcome.next.inj h).symm
  | noCycle =>
    simp only [decode, show classify (ctxOf s).ioNeedsSlot snap = .noCycle from hclass] at h
    exact .ignored (Host.Outcome.next.inj h).symm
  | unselected =>
    simp only [decode, show classify (ctxOf s).ioNeedsSlot snap = .unselected from hclass] at h
    split at h
    · exact .ignored (Host.Outcome.next.inj h).symm
    · exact .ignored (Host.Outcome.next.inj h).symm
  | memRead =>
    simp only [decode, show classify (ctxOf s).ioNeedsSlot snap = .memRead from hclass] at h
    obtain ⟨r, hr⟩ := exec_decodeMemRead (ctxOf s) snap.a s
    exact .served r (hr.symm.trans h)
  | memWrite =>
    simp only [decode, show classify (ctxOf s).ioNeedsSlot snap = .memWrite from hclass] at h
    rcases exec_decodeMemWrite s snap.a snap.d with hsame | ⟨e, he⟩
    · exact .ignored (Host.Outcome.next.inj (hsame.symm.trans h)).symm
    · exact .switched e hclass he.mem he.first he.last (Host.Outcome.next.inj (he.runs.symm.trans h)).symm
  | ioRead =>
    simp only [decode, show classify (ctxOf s).ioNeedsSlot snap = .ioRead from hclass] at h
    rcases exec_decodeIoRead_cases h with hsame | ⟨b, br, ht, hok⟩
    · exact .ignored hsame
    · exact .portRead b br ht hok
  | ioWrite =>
    simp only [decode, show classify (ctxOf s).ioNeedsSlot snap = .ioWrite from hclass] at h
    rcases exec_decodeIoWrite_cases h with hsame | ⟨hb, u, ht, hu⟩
    · exact .ignored hsame
    · exact .portWrite u hb ht hu

/-- A served read leaves the bank registers (R23). -/
theorem serveRead_bank {r : ReadResult} {s t : State} (h : serveRead r s = .next t) : t.bank = s.bank := by
  rcases serveRead_frame h with rfl | rfl | ⟨b, rfl⟩ | ⟨b, rfl⟩ <;> rfl

/-- Settles O36: of the effects a row can have only a switch write reaches the bank registers. -/
theorem onlySwitchWritesChangeBanks : Obligations.OnlySwitchWritesChangeBanks := by
  intro s t snap h hne
  cases sampleEffect_of_exec h with
  | ignored ht => exact absurd (congrArg State.bank ht) hne
  | served r ht => exact absurd (serveRead_bank ht) hne
  | portRead b br ht => exact absurd (congrArg State.bank ht) hne
  | portWrite u hb ht hu =>
    obtain ⟨br, co, rfl, -⟩ := hu
    exact absurd (congrArg State.bank ht) hne
  | switched e hclass mem first last ht =>
    refine ⟨hclass, e, mem, first, last, fun r hr => ?_⟩
    subst ht
    exact Vector.getElem_set_ne e.reg.isLt r.isLt fun hval => hr (Fin.ext hval.symm)

/-! ## The invariant through each update -/

/-- What holds in SERVE rests on the parameters, the configuration, the bank registers and the cache. -/
theorem Served.congr {s t : State} (h : Served s) (hpar : t.par = s.par) (hcfg : t.cfg = s.cfg)
    (hbank : t.bank = s.bank) (hcache : t.cache = s.cache) : Served t := by
  cases t
  subst hpar hcfg hbank hcache
  exact { h with store := { h.store with } }

/-- The offers of the environment do not matter to the invariant (log 3). -/
theorem coreInv_setInputs {s : State} (h : CoreInv s) (inputs : List Instant) : CoreInv (setInputs inputs s) :=
  { h with served := fun hp => (h.served hp).congr rfl rfl rfl rfl }

/-- A draw taken keeps the invariant (log 10). -/
theorem coreInv_nextDraw {s : State} (h : CoreInv s) : CoreInv (nextDraw s) :=
  { h with served := fun hp => (h.served hp).congr rfl rfl rfl rfl }

/-- The end of a hold keeps the invariant where no synchronous operation runs (R155, R156, R160). -/
theorem coreInv_release {s : State} (h : CoreInv s) (hb : syncBlocked s = false) : CoreInv (release s) :=
  { h with
    holdsInServe := fun hf => absurd rfl hf
    syncHold := fun hb' => absurd (hb.symm.trans hb') Bool.false_ne_true
    served := fun hp => (h.served hp).congr rfl rfl rfl rfl }

/-- A byte driven in SERVE, with a session that stays consistent, keeps the invariant (R152, R195 to R197). -/
theorem coreInv_drive {s : State} (h : CoreInv s) (hp : s.phase = .serve) (hb : syncBlocked s = false) (b : Byte)
    {br : Bridge} (hok : SessionOk br s.co s.dev) : CoreInv (drive b (setBridge br s)) :=
  { hok, h with
    params := h.params
    holdsInServe := fun _ => hp
    syncHold := fun hb' => absurd (hb.symm.trans hb') Bool.false_ne_true
    served := fun _ => (h.served hp).congr rfl rfl rfl rfl }

/-- A port write held for WR that leaves session and coordinator consistent keeps the invariant (R158, R160). -/
theorem coreInv_hold {s : State} (h : CoreInv s) (hp : s.phase = .serve) (hb : s.cfg.bridgeEn = true)
    {br : Bridge} {co : Coord} (hok : SessionOk br co s.dev) : CoreInv (holdWrite (setBridge br (setCoord co s))) :=
  { hok, h with
    params := h.params
    holdsInServe := fun _ => hp
    quietCoord := fun hn => absurd ⟨hp, hb⟩ hn
    syncHold := fun _ => rfl
    served := fun _ => (h.served hp).congr rfl rfl rfl rfl }

/-- With no operation in flight any more, a consistent session, coordinator and device keep the invariant (R213,
R214, R217, R218). -/
theorem coreInv_settled {s : State} (h : CoreInv s) {br : Bridge} {co : Coord} {dev : Device}
    (hok : SessionOk br co dev) (hf : co.inFlight = false)
    (hr : co.result ≠ .none → s.phase = .serve ∧ s.cfg.bridgeEn = true) :
    CoreInv (setDevice dev (setBridge br (setCoord co s))) :=
  { hok, h with
    params := h.params
    quietCoord := fun hn => ⟨hf, not_not.1 (mt hr hn)⟩
    syncHold := fun hb => by simp [syncBlocked, hf] at hb
    served := fun hp => (h.served hp).congr rfl rfl rfl rfl }

/-! ## Switch writes and the register widths -/

/-- Only the fine schemes, of 12-bit registers, switch part of a register (R83, R84). -/
theorem lane_of_mem_switchTable {neo8 neo16 : List SwitchEntry} {sch : Scheme} {e : SwitchEntry}
    (h : e ∈ switchTable neo8 neo16 sch) : bankWidth sch = 12 ∨ e.lane = .all := by
  cases sch with
  | neo8 => exact .inl rfl
  | neo16 => exact .inl rfl
  | scc | ascii8 =>
    simp only [switchTable, List.mem_cons, List.not_mem_nil, or_false] at h
    rcases h with rfl | rfl | rfl | rfl
    all_goals exact .inr rfl
  | konami =>
    simp only [switchTable, List.mem_cons, List.not_mem_nil, or_false] at h
    rcases h with rfl | rfl | rfl
    all_goals exact .inr rfl
  | ascii16 =>
    simp only [switchTable, List.mem_cons, List.not_mem_nil, or_false] at h
    rcases h with rfl | rfl
    all_goals exact .inr rfl
  | flat16 | flat32 | linear0 | none => exact absurd h List.not_mem_nil

/-- KONAMI has no switch range for register 0 (R83). -/
theorem reg_ne_zero_of_mem_konami {neo8 neo16 : List SwitchEntry} {e : SwitchEntry}
    (h : e ∈ switchTable neo8 neo16 .konami) : e.reg ≠ 0 := by
  simp only [switchTable, List.mem_cons, List.not_mem_nil, or_false] at h
  rcases h with rfl | rfl | rfl
  all_goals decide

/-- The value a switch write leaves is within the width of the scheme's registers (R116, R39 item 7). -/
theorem laneValue_lt {neo8 neo16 : List SwitchEntry} {sch : Scheme} {e : SwitchEntry}
    (h : e ∈ switchTable neo8 neo16 sch) (old : BankReg) (d : Byte) :
    (laneValue (bankWidth sch) e.lane old d).toNat < 2 ^ bankWidth sch := by
  rcases lane_of_mem_switchTable h with hw | hl
  · rw [hw]
    exact BitVec.isLt _
  · rw [hl, laneValue, BitVec.toNat_ofNat]
    exact (Nat.mod_le _ _).trans_lt (Nat.mod_lt _ (Nat.two_pow_pos _))

/-- A switch write keeps the invariant (R23, R116). -/
theorem coreInv_switched {s : State} (h : CoreInv s) (hp : s.phase = .serve) {e : SwitchEntry} (mem : e ∈ switches s)
    (d : Byte) : CoreInv (holdWrite (setBank e.reg (laneValue (bankWidth s.cfg.scheme) e.lane s.bank[e.reg] d) s)) := by
  have hserved := h.served hp
  refine { h with holdsInServe := fun _ => hp, syncHold := fun _ => rfl, served := fun _ => ?_ }
  refine { hserved with store := { hserved.store with }, bankWidths := fun i hi => ?_, konamiBank0 := fun hk => ?_ }
  · by_cases heq : e.reg = i
    · subst heq
      simpa [Fin.getElem_fin] using laneValue_lt mem _ d
    · simpa [Fin.getElem_fin, Vector.getElem_set, Fin.val_ne_of_ne heq] using hserved.bankWidths i hi
  · have hne : e.reg.val ≠ 0 := fun h0 =>
      reg_ne_zero_of_mem_konami (by rw [← show s.cfg.scheme = .konami from hk]; exact mem) (Fin.ext h0)
    simpa [Vector.getElem_set, hne] using hserved.konamiBank0 hk

/-! ## The invariant through a BUS step -/

/-- A served read in SERVE keeps the invariant (R152). -/
theorem coreInv_serveRead {r : ReadResult} {s t : State} (h : CoreInv s) (hp : s.phase = .serve)
    (hb : syncBlocked s = false) (ht : serveRead r s = .next t) : CoreInv t := by
  rcases serveRead_frame ht with rfl | rfl | ⟨b, rfl⟩ | ⟨b, rfl⟩
  · exact h
  · exact coreInv_nextDraw h
  · exact coreInv_drive h hp hb b (sessionOk_of_coreInv h)
  · exact coreInv_drive (coreInv_nextDraw h) hp hb b (sessionOk_of_coreInv h)

/-- The row of a sample keeps the invariant in SERVE where no synchronous operation runs. -/
theorem coreInv_exec {snap : Snapshot} {s t : State} (h : CoreInv s) (hp : s.phase = .serve)
    (hb : syncBlocked s = false) (ht : exec (decode (ctxOf s) snap) s = .next t) : CoreInv t := by
  cases sampleEffect_of_exec ht with
  | ignored heq => exact heq ▸ h
  | served r hr => exact coreInv_serveRead h hp hb hr
  | switched e hclass mem first last heq => exact heq ▸ coreInv_switched h hp mem snap.d
  | portRead b br heq hok => exact heq ▸ coreInv_drive h hp hb b (hok h)
  | portWrite u hen heq hu =>
    obtain ⟨br, co, rfl, hok⟩ := hu
    exact heq ▸ coreInv_hold h hp hen (hok h)

/-- The FSM's part of a BUS step keeps the invariant (R150, R155, R156). -/
theorem coreInv_fsmStep {snap : Snapshot} {s t : State} (h : CoreInv s) (hp : s.phase = .serve)
    (hb : syncBlocked s = false) (ht : fsmStep snap s = .next t) : CoreInv t := by
  unfold fsmStep at ht
  split at ht
  · rw [← Host.Outcome.next.inj ht, readWait]
    split
    · exact h
    · exact coreInv_release h hb
  · rw [← Host.Outcome.next.inj ht, writeWait]
    split
    · exact h
    · exact coreInv_release h hb
  · exact coreInv_exec h hp hb ht

/-- The absorption of a completion keeps the invariant (R214). -/
theorem coreInv_absorb {s t : State} (h : CoreInv s) (ht : absorb s = .next t) : CoreInv t := by
  have hcleared (hf : s.co.inFlight = false) : CoordQuiet { s.co with result := .none } := ⟨hf, rfl⟩
  rcases absorb_cases ht with ⟨rfl, -⟩ | ⟨rfl, hf, -⟩ | ⟨rfl, hf, -, -⟩ | ⟨rfl, hf, -, -⟩
  · exact h
  · exact coreInv_settled h (br := failBridge s.br) (sessionOk_idle (hcleared hf) rfl (.inr rfl)) hf (absurd rfl)
  · exact coreInv_settled h (br := readReady s.br)
      (sessionOk_sending (hcleared hf) rfl rfl (by simp [readReady])) hf (absurd rfl)
  · exact coreInv_settled h (br := writeReady s.br) (sessionOk_idle (hcleared hf) rfl (.inl rfl)) hf (absurd rfl)

/-- The absorption of a completion leaves the phase. -/
theorem absorb_phase {s t : State} (ht : absorb s = .next t) : t.phase = s.phase := by
  rcases absorb_cases ht with ⟨rfl, -⟩ | ⟨rfl, -⟩ | ⟨rfl, -⟩ | ⟨rfl, -⟩ <;> rfl

/-- The first part of a BUS step keeps the invariant and the phase (R150). -/
theorem coreInv_absorbFirst {s t : State} (h : CoreInv s) (ht : absorbFirst s = .next t) :
    CoreInv t ∧ t.phase = s.phase := by
  rcases absorbFirst_cases ht with rfl | ⟨-, ht⟩
  · exact ⟨h, rfl⟩
  · exact ⟨coreInv_absorb h ht, absorb_phase ht⟩

/-- A BUS step keeps the invariant (R150, R159, R160). -/
theorem coreInv_busStep {snap : Snapshot} {s t : State} (h : CoreInv s) (ht : busStep snap s = .next t) :
    CoreInv t := by
  rcases busStep_cases ht with ⟨rfl, -⟩ | ⟨hp, u, hu, hrest⟩
  · exact h
  · obtain ⟨hinv, hphase⟩ := coreInv_absorbFirst h hu
    rcases hrest with ⟨-, rfl⟩ | ⟨hb, hfsm⟩
    · exact hinv
    · exact coreInv_fsmStep hinv (hphase.trans hp) hb hfsm

/-! ## The invariant through the other events -/

/-- The invariant holds after a reset, whatever the reset leaves alone (R40, R250). -/
theorem coreInv_resetState {par : Params} (h : ParamsOk par) (dev : Device) (inputs : List Instant) (draws : Nat) :
    CoreInv (resetState par dev inputs draws) :=
  have hok : SessionOk resetBridge resetCoord dev := sessionOk_idle ⟨rfl, rfl⟩ rfl (.inl rfl)
  { hok with
    params := h
    cacheForm := rfl
    cacheBelow := rfl
    holdsInServe := absurd rfl
    quietCoord := fun _ => ⟨rfl, rfl⟩
    syncHold := fun hb => by simp [syncBlocked, resetState, resetCoord] at hb
    served := nofun }

/-- The parameters the model carries at reset meet the premises (log 2). -/
theorem paramsOk_resetParams : ParamsOk resetParams := by constructor <;> decide

/-- Settles O21, from what any reset leaves and the parameters of the model. -/
theorem invHoldsAtReset : Obligations.InvHoldsAtReset := coreInv_resetState paramsOk_resetParams _ _ _

/-- R213: the session of an operation in flight goes on pending when the outcome is there, whatever the buffer. -/
theorem sessionOk_completed {br : Bridge} {co : Coord} {dev : Device} (h : SessionOk br co dev)
    (hf : co.inFlight = true) {result : CoResult} (hr : result ≠ .none) (buf : Buffer) :
    SessionOk { br with buf := buf } { co with inFlight := false, result := result } dev :=
  { h with
    oneOutcome := nofun
    pendingIff := iff_of_true (h.pendingIff.2 (.inl hf)) (.inr hr)
    inRange := nofun }

/-- R213: a completion that is enabled replaces session and coordinator. -/
theorem completeEvent_replaces {s : State} (hf : s.co.inFlight = true) (ok : Bool) (data : Buffer) :
    ∃ buf, completeEvent ok data s = setBridge { s.br with buf := buf }
      (setCoord { s.co with inFlight := false, result := if ok then .ready else .failed } s) := by
  rw [completeEvent_inFlight hf]
  by_cases hread : (ok && s.co.op == .read) = true
  · rw [if_pos hread]
    exact ⟨data, rfl⟩
  · rw [if_neg hread]
    exact ⟨s.br.buf, rfl⟩

/-- R213: a completion keeps the invariant; the pending session now waits for its result. -/
theorem coreInv_completeEvent {s : State} (h : CoreInv s) (ok : Bool) (data : Buffer) :
    CoreInv (completeEvent ok data s) := by
  cases hf : s.co.inFlight with
  | false => rwa [completeEvent_idle hf]
  | true =>
    have hserve : s.phase = .serve ∧ s.cfg.bridgeEn = true := by
      by_contra hn
      exact absurd hf (by simp [(h.quietCoord hn).1])
    have hresult : (if ok then CoResult.ready else .failed) ≠ .none := by cases ok <;> decide
    obtain ⟨buf, heq⟩ := completeEvent_replaces hf ok data
    rw [heq]
    exact coreInv_settled h (sessionOk_completed (sessionOk_of_coreInv h) hf hresult buf) rfl fun _ => hserve

/-- A session and coordinator dropped with status Ready or Error are consistent (R217, R218). -/
theorem coreInv_dropSession {s : State} (h : CoreInv s) (dev : Device) {status : Byte}
    (hs : status = statusReady ∨ status = statusError) : CoreInv (dropSession status (setDevice dev s)) :=
  coreInv_settled h (sessionOk_idle ⟨rfl, rfl⟩ rfl hs) rfl (absurd rfl)

/-- A device event keeps the invariant where the coordinator is quiet. -/
theorem coreInv_setDevice {s : State} (h : CoreInv s) (hq : CoordQuiet s.co) (dev : Device) :
    CoreInv (setDevice dev s) :=
  coreInv_settled h { sessionOk_of_coreInv h with inRange := by simp [hq.idle] } hq.idle (absurd hq.noResult)

/-- Outside BOOT and configuration 10 the coordinator is quiet. -/
theorem coordQuiet_of_not_live {s : State} (h : CoreInv s) (hl : ¬sessionLive s = true) : CoordQuiet s.co :=
  coordQuiet_of_coreInv h fun hs => hl (by simp [sessionLive, hs.2])

/-- R217: a mount keeps the invariant. -/
theorem coreInv_mountEvent {s : State} (h : CoreInv s) (c : U32) : CoreInv (mountEvent c s) := by
  unfold mountEvent
  split
  · exact h
  · dsimp only
    split
    · exact coreInv_dropSession h _ (.inl rfl)
    · rename_i hl
      exact coreInv_setDevice h (coordQuiet_of_not_live h hl) _

/-- R218: a removal keeps the invariant. -/
theorem coreInv_removeEvent {s : State} (h : CoreInv s) : CoreInv (removeEvent s) := by
  unfold removeEvent
  split
  · dsimp only
    split
    · exact coreInv_dropSession h _ (.inr rfl)
    · rename_i hl
      exact coreInv_setDevice h (coordQuiet_of_not_live h hl) _
  · exact h

/-! ## The boot step -/

/-- A configuration that boot accepts, and what its checks establish (R16, R142, R254). -/
theorem bootConfigure_some {p : Params} {cfg : Cfg} (h : bootConfigure p = some cfg) :
    bootScheme p cfg.tag = some cfg.scheme ∧ cfg.bridgeEn = (cfg.tag == 10) ∧
    cfg.romBase.toNat + cfg.romSize.toNat ≤ p.storeLen ∧ cfg.stagedLen = stagedLength p cfg.romSize := by
  unfold bootConfigure at h
  split at h
  · split at h
    · split at h
      · rename_i hsch
        split at h
        · rename_i hfit
          obtain rfl := Option.some.inj h
          exact ⟨hsch, rfl, hfit, rfl⟩
        · cases h
      · cases h
    · cases h
    · cases h
  · cases h

/-- R142: the staged part fits the cache. -/
theorem stagedLength_le (p : Params) (size : U32) : (stagedLength p size).toNat ≤ p.cacheMax := by
  unfold stagedLength
  split
  · rw [BitVec.toNat_ofNat]
    exact (Nat.mod_le _ _).trans (Nat.min_le_right _ _)
  · exact Nat.zero_le _

/-- Every register number of a scheme is a value of its registers (R21). -/
theorem numBanks_le (sch : Scheme) : numBanks sch ≤ 2 ^ bankWidth sch := by cases sch <;> decide

/-- The ascending mapping puts its own number in each register of the scheme (R22). -/
theorem ascendingBanks_toNat {sch : Scheme} (old : Vector BankReg 6) {i : Fin 6} (hi : i.val < numBanks sch) :
    (ascendingBanks sch old)[i].toNat = i.val := by
  have hlt := i.isLt
  simp only [ascendingBanks, Fin.getElem_fin, Vector.getElem_ofFn, if_pos hi, BitVec.toNat_ofNat]
  omega

/-- R252: the boot step from BOOT that accepts its configuration establishes what holds in SERVE. -/
theorem served_boot {s : State} {cfg : Cfg} (hc : bootConfigure s.par = some cfg) :
    Served (enterServe (stage (setCfg cfg s))) := by
  obtain ⟨hscheme, hbridge, hfit, hstaged⟩ := bootConfigure_some hc
  exact
    { scheme := hscheme
      bridge := hbridge
      staged := hstaged
      store := ⟨hfit, fun k hk => Memory.read_stage_lt s.cache s.par.store cfg.romBase.toNat hk⟩
      bankWidths := fun i hi => (ascendingBanks_toNat s.bank hi).trans_lt (hi.trans_le (numBanks_le cfg.scheme))
      konamiBank0 := fun hk => by
        have hsch : cfg.scheme = .konami := hk
        exact BitVec.eq_of_toNat_eq (ascendingBanks_toNat (sch := cfg.scheme) (i := 0) s.bank (by rw [hsch]; decide)) }

/-- In BOOT the FSM is idle and the coordinator quiet. -/
theorem resting_of_boot {s : State} (h : CoreInv s) (hp : s.phase = .boot) : s.fsm = .idle ∧ CoordQuiet s.co := by
  have hn : s.phase ≠ .serve := by simp [hp]
  exact ⟨not_not.1 (mt h.holdsInServe hn), coordQuiet_of_coreInv h fun hs => hn hs.1⟩

/-- Entry to SERVE keeps the invariant (R256, R257). -/
theorem coreInv_boot_serves {s : State} {cfg : Cfg} (h : CoreInv s) (hp : s.phase = .boot)
    (hc : bootConfigure s.par = some cfg) : CoreInv (enterServe (stage (setCfg cfg s))) := by
  obtain ⟨-, hquiet⟩ := resting_of_boot h hp
  have hlen : cfg.stagedLen.toNat ≤ s.par.cacheMax := by
    rw [(bootConfigure_some hc).2.2.2]
    exact stagedLength_le _ _
  exact
    { h with
      cacheForm := Memory.stage_wf _ _ h.cacheForm h.params.storeForm
      cacheBelow := Memory.stage_below h.cacheBelow hlen
      holdsInServe := absurd rfl
      quietCoord := fun _ => ⟨hquiet.idle, hquiet.noResult⟩
      syncHold := fun hb => by simp [syncBlocked, hquiet.idle] at hb
      served := fun _ => served_boot hc }

/-- HALT keeps the invariant (R255). -/
theorem coreInv_boot_halts {s : State} (h : CoreInv s) (hp : s.phase = .boot) : CoreInv (halt s) := by
  obtain ⟨hidle, hquiet⟩ := resting_of_boot h hp
  exact
    { h with
      holdsInServe := absurd hidle
      quietCoord := fun _ => ⟨hquiet.idle, hquiet.noResult⟩
      served := nofun }

/-- R252: the boot step keeps the invariant, whether it serves or halts. -/
theorem coreInv_bootEvent {s : State} (h : CoreInv s) : CoreInv (bootEvent s) := by
  unfold bootEvent
  split
  · rename_i hp
    split
    · rename_i cfg hc
      exact coreInv_boot_serves h hp hc
    · exact coreInv_boot_halts h hp
  · exact h
  · exact h

/-! ## Every step -/

/-- Every event keeps the invariant (R39, R234). -/
theorem coreInv_runEvent {e : Event} {s t : State} (h : CoreInv s) (ht : runEvent e s = .next t) : CoreInv t := by
  cases e with
  | sample pins => exact coreInv_busStep h ht
  | bootStep => exact Host.Outcome.next.inj ht ▸ coreInv_bootEvent h
  | complete ok data => exact Host.Outcome.next.inj ht ▸ coreInv_completeEvent h ok data
  | mount c => exact Host.Outcome.next.inj ht ▸ coreInv_mountEvent h c
  | remove => exact Host.Outcome.next.inj ht ▸ coreInv_removeEvent h
  | reset => exact Host.Outcome.next.inj ht ▸ coreInv_resetState h.params _ _ _

/-- Taking an event changes the offers only (log 3). -/
theorem takeEvent_state (s : State) : ∃ inputs, (takeEvent s).2 = setInputs inputs s := by
  unfold takeEvent
  split
  · exact ⟨s.inputs, rfl⟩
  · exact ⟨_, rfl⟩
  · exact ⟨_, rfl⟩

/-- Settles O22: the event is taken from the offers, and every event keeps the invariant. -/
theorem stepKeepsInv : Obligations.StepKeepsInv := by
  intro s t h ht
  obtain ⟨inputs, hs⟩ := takeEvent_state s
  rw [step, hs] at ht
  exact coreInv_runEvent (coreInv_setInputs h inputs) ht

end Sys2Proof.Machine
end

section
/-! PROOFS of the family 20_memory.md: no cycle writes memory, no step but boot and reset touches what boot latches,
the windows of the memory reads, and the byte order of a collected block address. -/

namespace Sys2Proof.Machine

/-! ## What only the boot sequence and the reset write -/

/-- R58, R145: `t` has the parameters (STORE among them), the cache, the configuration and the phase of `s`. -/
structure BootFrame (s t : State) : Prop where
  par : t.par = s.par
  cache : t.cache = s.cache
  cfg : t.cfg = s.cfg
  phase : t.phase = s.phase

theorem BootFrame.refl (s : State) : BootFrame s s := ⟨rfl, rfl, rfl, rfl⟩

theorem BootFrame.trans {s t u : State} (h : BootFrame s t) (k : BootFrame t u) : BootFrame s u :=
  ⟨k.par.trans h.par, k.cache.trans h.cache, k.cfg.trans h.cfg, k.phase.trans h.phase⟩

/-- The shape of a row's next state says what the row leaves: the frame, the device and the offers (R58, R64). -/
theorem RowShape.keeps {s t : State} (h : RowShape s t) : BootFrame s t ∧ t.dev = s.dev ∧ t.inputs = s.inputs := by
  cases h with
  | same h | drawn h | driven b h | drawnDriven b h | switched r v h | bridged br co h | sent b br h =>
    subst h
    exact ⟨⟨rfl, rfl, rfl, rfl⟩, rfl, rfl⟩

/-- Settles O25, from the seven shapes a row's next state can have. -/
theorem noCycleWritesMemory : Obligations.NoCycleWritesMemory := by
  intro i s t h
  obtain ⟨hframe, hdev, hinputs⟩ := (exec_shape h).keeps
  exact ⟨fun k => by rw [hframe.par], fun k => by rw [hframe.cache],
    hframe.cache, hframe.par, hframe.cfg, hdev, hframe.phase, hinputs⟩

/-! ## The frame through each event -/

/-- R214: the absorption of a completion reaches session and coordinator only. -/
theorem absorb_bootFrame {s t : State} (h : absorb s = .next t) : BootFrame s t := by
  rcases absorb_cases h with ⟨rfl, -⟩ | ⟨rfl, -⟩ | ⟨rfl, -⟩ | ⟨rfl, -⟩
  · exact .refl t
  all_goals exact ⟨rfl, rfl, rfl, rfl⟩

/-- R150, R155, R156: the FSM's part of a BUS step ends a hold or runs a row. -/
theorem fsmStep_bootFrame {snap : Snapshot} {s t : State} (h : fsmStep snap s = .next t) : BootFrame s t := by
  unfold fsmStep at h
  split at h
  · rw [← Host.Outcome.next.inj h, readWait]
    split <;> exact ⟨rfl, rfl, rfl, rfl⟩
  · rw [← Host.Outcome.next.inj h, writeWait]
    split <;> exact ⟨rfl, rfl, rfl, rfl⟩
  · exact (exec_shape h).keeps.1

/-- R150, R159, R160: a BUS step keeps the frame in every phase. -/
theorem busStep_bootFrame {snap : Snapshot} {s t : State} (h : busStep snap s = .next t) : BootFrame s t := by
  rcases busStep_cases h with ⟨rfl, -⟩ | ⟨-, u, hu, hrest⟩
  · exact .refl t
  · have hframe : BootFrame s u := by
      rcases absorbFirst_cases hu with rfl | ⟨-, habsorb⟩
      · exact .refl u
      · exact absorb_bootFrame habsorb
    rcases hrest with ⟨-, rfl⟩ | ⟨-, hfsm⟩
    · exact hframe
    · exact hframe.trans (fsmStep_bootFrame hfsm)

/-- R213: a completion reaches session and coordinator only. -/
theorem completeEvent_bootFrame (ok : Bool) (data : Buffer) (s : State) : BootFrame s (completeEvent ok data s) := by
  cases hf : s.co.inFlight with
  | false =>
    rw [completeEvent_idle hf]
    exact .refl s
  | true =>
    obtain ⟨buf, hbuf⟩ := completeEvent_replaces hf ok data
    rw [hbuf]
    exact ⟨rfl, rfl, rfl, rfl⟩

/-- R217: a mount reaches device, session and coordinator only. -/
theorem mountEvent_bootFrame (c : U32) (s : State) : BootFrame s (mountEvent c s) := by
  unfold mountEvent
  split
  · exact .refl s
  · dsimp only
    split
    · exact ⟨rfl, rfl, rfl, rfl⟩
    · exact ⟨rfl, rfl, rfl, rfl⟩

/-- R218: a removal reaches device, session and coordinator only. -/
theorem removeEvent_bootFrame (s : State) : BootFrame s (removeEvent s) := by
  unfold removeEvent
  split
  · dsimp only
    split
    · exact ⟨rfl, rfl, rfl, rfl⟩
    · exact ⟨rfl, rfl, rfl, rfl⟩
  · exact .refl s

/-- R252: the boot step is enabled in BOOT only. -/
theorem bootEvent_of_not_boot {s : State} (h : s.phase ≠ .boot) : bootEvent s = s := by
  unfold bootEvent
  split
  · contradiction
  · rfl
  · rfl

/-- R145: the boot sequence reads STORE and the other parameters and leaves them. -/
theorem bootEvent_par (s : State) : (bootEvent s).par = s.par := by
  unfold bootEvent
  split
  · split <;> rfl
  · rfl
  · rfl

/-- No event changes the parameters (R58, R145). -/
theorem runEvent_par {e : Event} {s t : State} (h : runEvent e s = .next t) : t.par = s.par := by
  cases e with
  | sample pins => exact (busStep_bootFrame h).par
  | bootStep => exact Host.Outcome.next.inj h ▸ bootEvent_par s
  | complete ok data => exact Host.Outcome.next.inj h ▸ (completeEvent_bootFrame ok data s).par
  | mount c => exact Host.Outcome.next.inj h ▸ (mountEvent_bootFrame c s).par
  | remove => exact Host.Outcome.next.inj h ▸ (removeEvent_bootFrame s).par
  | reset => exact Host.Outcome.next.inj h ▸ rfl

/-- After boot every event but the reset keeps the frame (R58, R145, R250). -/
theorem runEvent_bootFrame {e : Event} {s t : State} (hp : s.phase ≠ .boot) (he : e ≠ .reset)
    (h : runEvent e s = .next t) : BootFrame s t := by
  cases e with
  | sample pins => exact busStep_bootFrame h
  | bootStep => exact Host.Outcome.next.inj h ▸ (bootEvent_of_not_boot hp).symm ▸ .refl s
  | complete ok data => exact Host.Outcome.next.inj h ▸ completeEvent_bootFrame ok data s
  | mount c => exact Host.Outcome.next.inj h ▸ mountEvent_bootFrame c s
  | remove => exact Host.Outcome.next.inj h ▸ removeEvent_bootFrame s
  | reset => exact absurd rfl he

/-- Settles O26: taking the event changes the offers only, and running it keeps the frame. -/
theorem stepsLeaveStoreAndCache : Obligations.StepsLeaveStoreAndCache := by
  intro s t h
  obtain ⟨inputs, hs⟩ := takeEvent_state s
  rw [step, hs] at h
  have hpar : t.par = (setInputs inputs s).par := runEvent_par h
  refine ⟨hpar, fun hp he => ?_⟩
  have hframe : BootFrame (setInputs inputs s) t := runEvent_bootFrame hp he h
  exact ⟨hframe.cache, hframe.cfg, hframe.phase⟩

/-! ## The windows of the memory reads -/

/-- R111, R112, R118 to R132: the row of a memory read in a window of the scheme, outside the sound region, is a
bounded read of the payload. -/
theorem exec_decodeMemRead_inWindows {s : State} {a : Addr} (hw : inWindows s.cfg.scheme a = true)
    (hsound : soundHit s a = false) : ∃ rel, exec (decodeMemRead (ctxOf s) a) s = serveRead (bounded s rel) s := by
  cases hs : s.cfg.scheme with
  | none => simp [hs, inWindows, flatWindow, geometry] at hw
  | flat16 =>
    simp only [hs, inWindows, flatWindow, geometry, Bool.and_eq_true, decide_eq_true_eq] at hw
    have hk : a.toNat / 0x4000 = 1 := by omega
    exact ⟨_, by simp only [decodeMemRead, ctxOf, hs, hk]; rfl⟩
  | flat32 | ascii16 =>
    simp only [hs, inWindows, flatWindow, geometry, Bool.and_eq_true, decide_eq_true_eq] at hw
    have hpage : a.toNat / 0x4000 = 1 ∨ a.toNat / 0x4000 = 2 := by omega
    rcases hpage with hk | hk <;>
      exact ⟨_, by simp only [decodeMemRead, ctxOf, hs, hk]; rfl⟩
  | linear0 | neo16 =>
    simp only [hs, inWindows, flatWindow, geometry, Bool.and_eq_true, decide_eq_true_eq] at hw
    have hpage : a.toNat / 0x4000 = 0 ∨ a.toNat / 0x4000 = 1 ∨ a.toNat / 0x4000 = 2 := by omega
    rcases hpage with hk | hk | hk <;>
      exact ⟨_, by simp only [decodeMemRead, ctxOf, hs, hk]; rfl⟩
  | scc =>
    have hn : ¬(soundOn s && inSoundRegion a) = true := by simpa [soundHit, hs] using hsound
    simp only [hs, inWindows, flatWindow, geometry, Bool.and_eq_true, decide_eq_true_eq] at hw
    have hpage : a.toNat / 0x2000 = 2 ∨ a.toNat / 0x2000 = 3 ∨ a.toNat / 0x2000 = 4 ∨ a.toNat / 0x2000 = 5 := by omega
    rcases hpage with hk | hk | hk | hk <;>
      exact ⟨_, by simp only [decodeMemRead, ctxOf, hs, if_neg hn, hk]; rfl⟩
  | ascii8 | konami =>
    simp only [hs, inWindows, flatWindow, geometry, Bool.and_eq_true, decide_eq_true_eq] at hw
    have hpage : a.toNat / 0x2000 = 2 ∨ a.toNat / 0x2000 = 3 ∨ a.toNat / 0x2000 = 4 ∨ a.toNat / 0x2000 = 5 := by omega
    rcases hpage with hk | hk | hk | hk <;>
      exact ⟨_, by simp only [decodeMemRead, ctxOf, hs, hk]; rfl⟩
  | neo8 =>
    simp only [hs, inWindows, flatWindow, geometry, Bool.and_eq_true, decide_eq_true_eq] at hw
    have hpage : a.toNat / 0x2000 = 0 ∨ a.toNat / 0x2000 = 1 ∨ a.toNat / 0x2000 = 2 ∨
        a.toNat / 0x2000 = 3 ∨ a.toNat / 0x2000 = 4 ∨ a.toNat / 0x2000 = 5 := by omega
    rcases hpage with hk | hk | hk | hk | hk | hk <;>
      exact ⟨_, by simp only [decodeMemRead, ctxOf, hs, hk]; rfl⟩

/-- A sample of class MEM_READ is decoded by its address (R69). -/
theorem decode_memRead {s : State} {snap : Snapshot} (h : classify s.par.ioNeedsSlot snap = .memRead) :
    decode (ctxOf s) snap = decodeMemRead (ctxOf s) snap.a := by
  simp only [decode, show classify (ctxOf s).ioNeedsSlot snap = .memRead from h]

/-- Settles O31: inside the windows a bounded read drives the payload's byte, outside them the row is unserved. -/
theorem readsServedExactlyInWindows : Obligations.ReadsServedExactlyInWindows := by
  intro s snap hstore hclass hsound
  rw [decode_memRead hclass]
  constructor
  · intro hw
    obtain ⟨rel, hrel⟩ := exec_decodeMemRead_inWindows hw hsound
    exact ⟨payload s rel, hrel.trans (serveRead_bounded hstore rel)⟩
  · intro hw
    have hrow : WellFormed (ctxOf s) (.memReadUnserved snap.a) = true := by simp [WellFormed, ctxOf, hw]
    rw [Laws.decodeMemRead_unserved _ _ hrow]
    rfl

/-! ## The address phase -/

/-- R85: a run of data-port writes whose first byte answers a next state goes on from that state, released. -/
theorem dataWrites_cons {d : Byte} {ds : List Byte} {s u : State} (h : exec (.iwData d) s = .next u) :
    dataWrites (d :: ds) s = dataWrites ds (release u) := by
  simp only [dataWrites, h]

/-- A data-port write in AWAIT_ADDR is an address byte (R184, R185). -/
theorem exec_iwData_awaitAddr {s : State} (h : s.br.state = .awaitAddr) (d : Byte) :
    exec (.iwData d) s = addrByte d s := dataWriteCycle_awaitAddr h d

/-- R54, R185: address byte number `k` adds itself at weight `2 ^ (8 * k)` to the bytes below it. -/
theorem addrBridge_lba_toNat {br : Bridge} (d : Byte) (hk : br.addrCount < 4)
    (hl : br.lba.toNat < 2 ^ (8 * br.addrCount)) :
    (addrBridge d br).lba.toNat = br.lba.toNat + d.toNat * 2 ^ (8 * br.addrCount) := by
  have hfit : d.toNat * 2 ^ (8 * br.addrCount) < 2 ^ 32 := calc
    d.toNat * 2 ^ (8 * br.addrCount) < 2 ^ 8 * 2 ^ (8 * br.addrCount) :=
      Nat.mul_lt_mul_of_pos_right d.isLt (Nat.two_pow_pos _)
    _ = 2 ^ (8 + 8 * br.addrCount) := (Nat.pow_add ..).symm
    _ ≤ 2 ^ 32 := Nat.pow_le_pow_right (by decide) (by omega)
  have hd : (d.setWidth 32).toNat = d.toNat := BitVec.toNat_setWidth_of_le (by decide)
  have hshift : (d.setWidth 32 <<< (8 * br.addrCount)).toNat = d.toNat <<< (8 * br.addrCount) := by
    rw [BitVec.toNat_shiftLeft, hd, Nat.shiftLeft_eq, Nat.mod_eq_of_lt hfit]
  rw [addrBridge, BitVec.toNat_or, hshift, Nat.lor_comm, ← Nat.shiftLeft_add_eq_or_of_lt hl, Nat.shiftLeft_eq,
    Nat.add_comm]

/-- R185: in the address phase of an operation in direction `dir`, `k` bytes of value `v` are collected. -/
structure Collected (s : State) (dir : Dir) (k v : Nat) : Prop where
  state : s.br.state = .awaitAddr
  dir : s.br.dir = dir
  count : s.br.addrCount = k
  value : s.br.lba.toNat = v
  bound : v < 2 ^ (8 * k)

/-- The value of the session once one more byte is collected. -/
theorem Collected.next_value {s : State} {dir : Dir} {k v : Nat} (h : Collected s dir k v) (hk : k < 4) (d : Byte) :
    (addrBridge d s.br).lba.toNat = v + d.toNat * 2 ^ (8 * k) := by
  obtain ⟨-, -, rfl, rfl, hbound⟩ := h
  exact addrBridge_lba_toNat d hk hbound

/-- One more byte still has its value below the weight of the byte after it. -/
theorem Collected.next_bound {s : State} {dir : Dir} {k v : Nat} (h : Collected s dir k v) (d : Byte) :
    v + d.toNat * 2 ^ (8 * k) < 2 ^ (8 * (k + 1)) := by
  have hv := h.bound
  calc v + d.toNat * 2 ^ (8 * k) < d.toNat * 2 ^ (8 * k) + 2 ^ (8 * k) := by omega
    _ = (d.toNat + 1) * 2 ^ (8 * k) := (Nat.succ_mul ..).symm
    _ ≤ 2 ^ 8 * 2 ^ (8 * k) := Nat.mul_le_mul_right _ d.isLt
    _ = 2 ^ (8 * (k + 1)) := by rw [← Nat.pow_add, Nat.mul_succ, Nat.add_comm]

/-- R185: a byte before the fourth is collected. -/
theorem Collected.byte {s : State} {dir : Dir} {k v : Nat} (h : Collected s dir k v) (hk : k < 3) (d : Byte)
    (ds : List Byte) :
    ∃ u, dataWrites (d :: ds) s = dataWrites ds u ∧ Collected u dir (k + 1) (v + d.toNat * 2 ^ (8 * k)) := by
  have hmore := addrByte_more (h.count.trans_lt hk) d
  refine ⟨_, dataWrites_cons ((exec_iwData_awaitAddr h.state d).trans hmore), ?_⟩
  exact ⟨h.state, h.dir, congrArg (· + 1) h.count, h.next_value (by omega) d, h.next_bound d⟩

/-- R186: the fourth byte of a write's address opens the payload phase. -/
theorem Collected.last_write {s : State} {v : Nat} (h : Collected s .write 3 v) (d : Byte) :
    ∃ t, dataWrites [d] s = .next t ∧ t.br.state = .awaitPayload ∧ t.br.lba.toNat = v + d.toNat * 2 ^ 24 := by
  have hend : endAddr (setBridge (addrBridge d s.br) s) = setBridge
      { addrBridge d s.br with state := .awaitPayload, cursor := 0, status := statusReady } s := by
    simp only [endAddr, setBridge_br, show (addrBridge d s.br).dir = .write from h.dir]
    rfl
  have hlast := addrByte_last h.count d
  rw [hend] at hlast
  exact ⟨_, dataWrites_cons ((exec_iwData_awaitAddr h.state d).trans hlast), rfl, h.next_value (by decide) d⟩

/-- Settles O50: three bytes are collected, each at its weight, and the fourth ends the address phase. -/
theorem fourAddressBytesAreLittleEndian : Obligations.FourAddressBytesAreLittleEndian := by
  intro s b0 b1 b2 b3 hstate hdir hcount hlba
  have h0 : Collected s .write 0 0 := ⟨hstate, hdir, hcount, by rw [hlba]; rfl, by decide⟩
  obtain ⟨s1, e1, h1⟩ := h0.byte (by decide) b0 [b1, b2, b3]
  obtain ⟨s2, e2, h2⟩ := h1.byte (by decide) b1 [b2, b3]
  obtain ⟨s3, e3, h3⟩ := h2.byte (by decide) b2 [b3]
  obtain ⟨t, e4, hpayload, hvalue⟩ := h3.last_write b3
  refine ⟨t, ((e1.trans e2).trans e3).trans e4, hpayload, ?_⟩
  rw [hvalue]
  omega

end Sys2Proof.Machine
end

section
/-! PROOFS of the family 30_encoding.md: decoding and encoding agree, every decoded row stands in its context, the
cycle classes and the command bytes, the boot of a valid record, and the switch ranges. -/

namespace Sys2Proof.Machine

/-! ## The round trip -/

/-- R67, R69: every row of the opcode table is what its encoding decodes to. -/
theorem roundTrip : ∀ i : Instr, Laws.RoundTrip.Statement i
  | .noise => Laws.RoundTrip.noise
  | .noCycle => Laws.RoundTrip.noCycle
  | .unselectedRd => Laws.RoundTrip.unselectedRd
  | .unselectedWr => Laws.RoundTrip.unselectedWr
  | .mrFlat16 off => Laws.RoundTrip.mrFlat16 off
  | .mrFlat32Lo off => Laws.RoundTrip.mrFlat32Lo off
  | .mrFlat32Hi off => Laws.RoundTrip.mrFlat32Hi off
  | .mrLinear0Part0 off => Laws.RoundTrip.mrLinear0Part0 off
  | .mrLinear0Part1 off => Laws.RoundTrip.mrLinear0Part1 off
  | .mrLinear0Part2 off => Laws.RoundTrip.mrLinear0Part2 off
  | .mrSccBank0 off => Laws.RoundTrip.mrSccBank0 off
  | .mrSccBank1 off => Laws.RoundTrip.mrSccBank1 off
  | .mrSccBank2 off => Laws.RoundTrip.mrSccBank2 off
  | .mrSccBank3 off => Laws.RoundTrip.mrSccBank3 off
  | .mrKonamiBank0 off => Laws.RoundTrip.mrKonamiBank0 off
  | .mrKonamiBank1 off => Laws.RoundTrip.mrKonamiBank1 off
  | .mrKonamiBank2 off => Laws.RoundTrip.mrKonamiBank2 off
  | .mrKonamiBank3 off => Laws.RoundTrip.mrKonamiBank3 off
  | .mrAscii8Bank0 off => Laws.RoundTrip.mrAscii8Bank0 off
  | .mrAscii8Bank1 off => Laws.RoundTrip.mrAscii8Bank1 off
  | .mrAscii8Bank2 off => Laws.RoundTrip.mrAscii8Bank2 off
  | .mrAscii8Bank3 off => Laws.RoundTrip.mrAscii8Bank3 off
  | .mrAscii16Bank0 off => Laws.RoundTrip.mrAscii16Bank0 off
  | .mrAscii16Bank1 off => Laws.RoundTrip.mrAscii16Bank1 off
  | .mrNeo8Bank0 off => Laws.RoundTrip.mrNeo8Bank0 off
  | .mrNeo8Bank1 off => Laws.RoundTrip.mrNeo8Bank1 off
  | .mrNeo8Bank2 off => Laws.RoundTrip.mrNeo8Bank2 off
  | .mrNeo8Bank3 off => Laws.RoundTrip.mrNeo8Bank3 off
  | .mrNeo8Bank4 off => Laws.RoundTrip.mrNeo8Bank4 off
  | .mrNeo8Bank5 off => Laws.RoundTrip.mrNeo8Bank5 off
  | .mrNeo16Bank0 off => Laws.RoundTrip.mrNeo16Bank0 off
  | .mrNeo16Bank1 off => Laws.RoundTrip.mrNeo16Bank1 off
  | .mrNeo16Bank2 off => Laws.RoundTrip.mrNeo16Bank2 off
  | .mrSccSound off => Laws.RoundTrip.mrSccSound off
  | .mwSccBank0 off d => Laws.RoundTrip.mwSccBank0 off d
  | .mwSccBank1 off d => Laws.RoundTrip.mwSccBank1 off d
  | .mwSccBank2 off d => Laws.RoundTrip.mwSccBank2 off d
  | .mwSccBank3 off d => Laws.RoundTrip.mwSccBank3 off d
  | .mwKonamiBank1 off d => Laws.RoundTrip.mwKonamiBank1 off d
  | .mwKonamiBank2 off d => Laws.RoundTrip.mwKonamiBank2 off d
  | .mwKonamiBank3 off d => Laws.RoundTrip.mwKonamiBank3 off d
  | .mwAscii8Bank0 off d => Laws.RoundTrip.mwAscii8Bank0 off d
  | .mwAscii8Bank1 off d => Laws.RoundTrip.mwAscii8Bank1 off d
  | .mwAscii8Bank2 off d => Laws.RoundTrip.mwAscii8Bank2 off d
  | .mwAscii8Bank3 off d => Laws.RoundTrip.mwAscii8Bank3 off d
  | .mwAscii16Bank0 off d => Laws.RoundTrip.mwAscii16Bank0 off d
  | .mwAscii16Bank1 off d => Laws.RoundTrip.mwAscii16Bank1 off d
  | .mwSccSound off d => Laws.RoundTrip.mwSccSound off d
  | .mwNeo8Switch a d => Laws.RoundTrip.mwNeo8Switch a d
  | .mwNeo16Switch a d => Laws.RoundTrip.mwNeo16Switch a d
  | .mwOther a d => Laws.RoundTrip.mwOther a d
  | .memReadUnserved a => Laws.RoundTrip.memReadUnserved a
  | .iwCtrlInit => Laws.RoundTrip.iwCtrlInit
  | .iwCtrlGetId => Laws.RoundTrip.iwCtrlGetId
  | .iwCtrlGetCap => Laws.RoundTrip.iwCtrlGetCap
  | .iwCtrlReadBlock => Laws.RoundTrip.iwCtrlReadBlock
  | .iwCtrlReadNext => Laws.RoundTrip.iwCtrlReadNext
  | .iwCtrlWriteBlock => Laws.RoundTrip.iwCtrlWriteBlock
  | .iwCtrlWriteNext => Laws.RoundTrip.iwCtrlWriteNext
  | .iwCtrlUnrecognised d => Laws.RoundTrip.iwCtrlUnrecognised d
  | .irCtrlStatus => Laws.RoundTrip.irCtrlStatus
  | .iwData d => Laws.RoundTrip.iwData d
  | .irDataSending => Laws.RoundTrip.irDataSending
  | .irDataOther => Laws.RoundTrip.irDataOther
  | .ioOtherPort isWrite port => Laws.RoundTrip.ioOtherPort isWrite port

/-- Settles O2, row by row of the opcode table. -/
theorem decodeEncodeAgree : Obligations.DecodeEncodeAgree := fun c i => roundTrip i c

/-! ## The single byte and the cycle class -/

/-- A byte is given by its number. -/
theorem byte_eq_iff_toNat {d : Byte} {k : Nat} (hk : k < 256) : d = BitVec.ofNat 8 k ↔ d.toNat = k := by
  rw [← BitVec.toNat_inj, BitVec.toNat_ofNat, Nat.mod_eq_of_lt hk]

/-- Settles O5, along the branches of the decoder of command bytes. -/
theorem commandByteMap : Obligations.CommandByteMap := by
  intro d
  unfold decodeCommand
  split
  case h_8 =>
    simp_all [byte_eq_iff_toNat]
    omega
  all_goals
    rename_i h
    obtain rfl := (byte_eq_iff_toNat (h ▸ d.isLt)).2 h
    decide

/-- Settles O4: two equal strobes decide alone; with one strobe active IORQ, SLT and the slot gate decide. -/
theorem cycleClassOfControlSignals : Obligations.CycleClassOfControlSignals := by
  rintro needsSlot ⟨slt, rd, wr, iorq, a, d⟩
  match rd, wr with
  | true, true => simp [classify]
  | false, false => simp [classify]
  | true, false =>
    cases iorq with
    | false => cases slt <;> simp [classify]
    | true => cases needsSlot <;> cases slt <;> simp [classify]
  | false, true =>
    cases iorq with
    | false => cases slt <;> simp [classify]
    | true => cases needsSlot <;> cases slt <;> simp [classify]

/-- Settles O1: the decoder evaluated on the eight words. -/
theorem exampleWordsDecode : Obligations.ExampleWordsDecode := by
  unfold Obligations.ExampleWordsDecode
  decide

/-! ## The decoded row is well-formed -/

/-- R115: in the window 0x8000-0x9FFF the offset lies in the sound region exactly where the address does. -/
theorem soundOffset_setWidth {a : Addr} (hk : a.toNat / 0x2000 = 4) :
    soundOffset (a.setWidth 13) = inSoundRegion a := by
  have hoff : (a.setWidth 13).toNat = a.toNat % 0x2000 := BitVec.toNat_setWidth ..
  rw [Bool.eq_iff_iff]
  simp only [soundOffset, inSoundRegion, hoff, Bool.and_eq_true, decide_eq_true_eq]
  omega

/-- R114: the unserved row stands at every address outside the windows of the scheme. -/
theorem wellFormed_memReadUnserved {c : Ctx} {sch : Scheme} (hs : c.scheme = sch) {a : Addr}
    (h : ¬inWindows sch a = true) : WellFormed c (.memReadUnserved a) = true := by
  simp only [WellFormed, hs, Bool.eq_false_of_not_eq_true h, Bool.not_false]

/-- R114, R118 to R132: the row of a memory read is one of its scheme, and the unserved row only outside the windows. -/
theorem wellFormed_decodeMemRead (c : Ctx) (a : Addr) : WellFormed c (decodeMemRead c a) = true := by
  cases hs : c.scheme with
  | none =>
    simp only [decodeMemRead, hs]
    exact wellFormed_memReadUnserved hs (by simp [inWindows, flatWindow, geometry])
  | scc =>
    simp only [decodeMemRead, hs]
    split
    next hsound => simp [WellFormed, hs, (Bool.and_eq_true_iff.1 hsound).1]
    next hsound =>
      split
      case h_3 hk => simpa [WellFormed, hs, soundOffset_setWidth hk, ← Bool.not_eq_true, imp_iff_not_or] using hsound
      case h_5 => exact wellFormed_memReadUnserved hs (by grind [inWindows, flatWindow, geometry])
      all_goals simp [WellFormed, hs]
  | flat16 =>
    simp only [decodeMemRead, hs]
    split
    case h_2 => exact wellFormed_memReadUnserved hs (by grind [inWindows, flatWindow])
    all_goals simp [WellFormed, hs]
  | flat32 | ascii16 =>
    simp only [decodeMemRead, hs]
    split
    case h_3 => exact wellFormed_memReadUnserved hs (by grind [inWindows, flatWindow, geometry])
    all_goals simp [WellFormed, hs]
  | linear0 | neo16 =>
    simp only [decodeMemRead, hs]
    split
    case h_4 => exact wellFormed_memReadUnserved hs (by grind [inWindows, flatWindow, geometry])
    all_goals simp [WellFormed, hs]
  | ascii8 | konami =>
    simp only [decodeMemRead, hs]
    split
    case h_5 => exact wellFormed_memReadUnserved hs (by grind [inWindows, flatWindow, geometry])
    all_goals simp [WellFormed, hs]
  | neo8 =>
    simp only [decodeMemRead, hs]
    split
    case h_7 => exact wellFormed_memReadUnserved hs (by grind [inWindows, flatWindow, geometry])
    all_goals simp [WellFormed, hs]

/-- R116, R117: the row of other writes stands outside the sound region, where no entry holds the address. -/
theorem wellFormed_mwOther {c : Ctx} {sch : Scheme} (hs : c.scheme = sch) {a : Addr} (d : Byte)
    (hsound : sch = .scc → ¬(c.soundOn && inSoundRegion a) = true)
    (hfind : findEntry (switchTable c.neo8Switch c.neo16Switch sch) a = none) :
    WellFormed c (.mwOther a d) = true := by
  subst hs
  simp only [WellFormed, hfind, Option.isNone_none, Bool.and_true, Bool.not_eq_true', Bool.and_assoc]
  simpa using hsound

/-- R116, R117, R123 to R133: the row of a memory write is one of its scheme, and the row of other writes only
where no entry of the switch table holds the address. -/
theorem wellFormed_decodeMemWrite (c : Ctx) (a : Addr) (d : Byte) : WellFormed c (decodeMemWrite c a d) = true := by
  cases hs : c.scheme with
  | scc =>
    simp only [decodeMemWrite, hs]
    split
    next hsound => simp [WellFormed, hs, (Bool.and_eq_true_iff.1 hsound).1]
    next hsound =>
      split
      case h_5 => exact wellFormed_mwOther hs d (fun _ => hsound) (by grind [findEntry, switchTable])
      all_goals simp [WellFormed, hs]
  | ascii8 =>
    simp only [decodeMemWrite, hs]
    split
    case h_5 => exact wellFormed_mwOther hs d nofun (by grind [findEntry, switchTable])
    all_goals simp [WellFormed, hs]
  | konami =>
    simp only [decodeMemWrite, hs]
    split
    case h_4 => exact wellFormed_mwOther hs d nofun (by grind [findEntry, switchTable])
    all_goals simp [WellFormed, hs]
  | ascii16 =>
    simp only [decodeMemWrite, hs]
    split
    case h_3 => exact wellFormed_mwOther hs d nofun (by grind [findEntry, switchTable])
    all_goals simp [WellFormed, hs]
  | neo8 | neo16 =>
    simp only [decodeMemWrite, hs]
    split
    next hfind => simp [WellFormed, hs, hfind]
    next hfind => exact wellFormed_mwOther hs d nofun (by simpa [switchTable] using hfind)
  | flat16 | flat32 | linear0 | none =>
    simp only [decodeMemWrite, hs]
    exact wellFormed_mwOther hs d nofun rfl

/-- R72, R73: with the bridge on, the row of a command byte stands, and the unrecognised row for every other byte. -/
theorem wellFormed_decodeCommand {c : Ctx} (hb : c.bridgeEn = true) (d : Byte) :
    WellFormed c (decodeCommand d) = true := by
  unfold decodeCommand
  split
  case h_8 => simp_all [WellFormed, recognised, byte_eq_iff_toNat]
  all_goals exact hb

/-- R70, R158: the row of a port that is neither of the bridge's stands. -/
theorem wellFormed_ioOtherPort {c : Ctx} {p : Port} (hc : p ≠ c.ctrlPort) (hd : p ≠ c.dataPort) (isWrite : Bool) :
    WellFormed c (.ioOtherPort isWrite p) = true := by
  simp [WellFormed, hc, hd]

/-- R70, R195 to R197: the row of an I/O read is that of its port and of the session's phase. -/
theorem wellFormed_decodeIoRead (c : Ctx) (a : Addr) : WellFormed c (decodeIoRead c a) = true := by
  unfold decodeIoRead
  split
  next hb => simp only [WellFormed, hb, Bool.true_or]
  next hb =>
    have hb : c.bridgeEn = true := by simpa using hb
    split
    next => exact hb
    next hc =>
      split
      next =>
        split
        next hsend => simp [WellFormed, hb, hsend]
        next hsend => simp [WellFormed, hb, hsend]
      next hd => exact wellFormed_ioOtherPort hc hd false

/-- R70, R170, R184: the row of an I/O write is that of its port and of its byte. -/
theorem wellFormed_decodeIoWrite (c : Ctx) (a : Addr) (d : Byte) : WellFormed c (decodeIoWrite c a d) = true := by
  unfold decodeIoWrite
  split
  next hb => simp only [WellFormed, hb, Bool.true_or]
  next hb =>
    have hb : c.bridgeEn = true := by simpa using hb
    split
    next => exact wellFormed_decodeCommand hb d
    next hc =>
      split
      next => exact hb
      next hd => exact wellFormed_ioOtherPort hc hd true

/-- R69: the row a snapshot decodes to stands in its context. -/
theorem wellFormed_decode (c : Ctx) (s : Snapshot) : WellFormed c (decode c s) = true := by
  unfold decode
  split
  · rfl
  · rfl
  · split
    · rfl
    · rfl
  · exact wellFormed_decodeMemRead c s.a
  · exact wellFormed_decodeMemWrite c s.a s.d
  · exact wellFormed_decodeIoRead c s.a
  · exact wellFormed_decodeIoWrite c s.a s.d

/-- Settles O3: one lemma for each cycle class that carries an address. -/
theorem decodedRowIsWellFormed : Obligations.DecodedRowIsWellFormed := fun c w =>
  wellFormed_decode c (Snapshot.ofWord w)

/-! ## The boot of a valid record -/

/-- R254: with the records up to `j` present, the scan reaches record `j`. -/
theorem recordsUpTo_of_valid {p : Params} {j : Nat} (h : ∀ k ≤ j, ∃ t z o, readRecord p k = .valid t z o) :
    recordsUpTo p j = true := by
  induction j with
  | zero =>
    obtain ⟨t, z, o, hr⟩ := h 0 (Nat.le_refl 0)
    simp only [recordsUpTo, hr]
  | succ k ih =>
    obtain ⟨t, z, o, hr⟩ := h (k + 1) (Nat.le_refl _)
    simp only [recordsUpTo, hr, Bool.and_true]
    exact ih fun i hi => h i (Nat.le_succ_of_le hi)

/-- R76: a tag from 1 to 10 has the scheme the list gives it. -/
theorem bootScheme_of_mem {p : Params} {tag : Byte} {sch : Scheme}
    (h : (tag, sch) ∈ [((1 : Byte), Scheme.flat16), (2, .flat32), (3, .scc), (4, .linear0), (5, .ascii8), (6, .ascii16),
      (7, .konami), (8, .neo8), (9, .neo16), (10, p.bridgeRomScheme)]) : bootScheme p tag = some sch := by
  simp only [List.mem_cons, List.not_mem_nil, or_false, Prod.mk.injEq] at h
  rcases h with h | h | h | h | h | h | h | h | h | h
  all_goals
    obtain ⟨rfl, rfl⟩ := h
    rfl

/-- R254: what `BootConfigure()` gives when each of its checks passes. -/
theorem bootConfigure_of_valid {p : Params} {tag : Byte} {size offset : U32} {sch : Scheme}
    (hall : ∀ j ≤ p.activeIndex, ∃ t z o, readRecord p j = .valid t z o)
    (hactive : readRecord p p.activeIndex = .valid tag size offset) (hsch : bootScheme p tag = some sch)
    (hfit : offset.toNat + size.toNat ≤ p.storeLen) :
    bootConfigure p = some ⟨tag, sch, tag == 10, offset, size, stagedLength p size⟩ := by
  simp only [bootConfigure, recordsUpTo_of_valid hall, hactive, hsch, hfit, if_true]

/-- R252: in BOOT the boot step with an accepted configuration stages the cache and enters SERVE. -/
theorem bootEvent_serves {s : State} {cfg : Cfg} (hp : s.phase = .boot) (hc : bootConfigure s.par = some cfg) :
    bootEvent s = enterServe (stage (setCfg cfg s)) := by
  simp only [bootEvent, hp, hc]

/-- Settles O19: the checks pass and give the configuration; staging copies and the mapping ascends by their lemmas. -/
theorem bootServesValidRecord : Obligations.BootServesValidRecord := by
  intro s tag size offset sch hp hall hactive htag hfit
  have hc := bootConfigure_of_valid hall hactive (bootScheme_of_mem htag) hfit
  refine ⟨_, congrArg Host.Outcome.next (bootEvent_serves hp hc), rfl, rfl, rfl, rfl, ?_, ?_,
    rfl, rfl, rfl, rfl, rfl, rfl, rfl⟩
  · exact fun i hi => ascendingBanks_toNat s.bank hi
  · exact fun k hk => Memory.read_stage_lt s.cache s.par.store offset.toNat hk

/-! ## The fixed switch ranges -/

/-- R116: a switch row of an 8-bit register leaves the byte in it and holds for WR. -/
theorem switchCycle_byte (r : Fin 6) (d : Byte) (s : State) :
    switchCycle 8 r .all d s = .next (switched r (d.setWidth 12) s) := by
  rw [switchCycle, laneValue_all]
  rfl

/-- R83: all addresses of a range that is an aligned block of `size` addresses have the block number of its first. -/
theorem block_of_range {a lo hi size : Nat} (hlo : lo ≤ a) (hhi : a ≤ hi) (hsize : hi + 1 = lo + size)
    (hdvd : size ∣ lo) : a / size = lo / size := by
  obtain ⟨k, rfl⟩ := hdvd
  have hpos : 0 < size := by omega
  rw [Nat.mul_div_cancel_left k hpos]
  exact Nat.div_eq_of_lt_le (by rw [Nat.mul_comm]; exact hlo) (by rw [Nat.succ_mul, Nat.mul_comm]; omega)

/-- R83: no switch range of the SCC scheme reaches into the sound region. -/
theorem not_inSoundRegion_of_mem_scc {neo8 neo16 : List SwitchEntry} {e : SwitchEntry}
    (mem : e ∈ switchTable neo8 neo16 .scc) {a : Addr} (hlo : e.lo.toNat ≤ a.toNat) (hhi : a.toNat ≤ e.hi.toNat) :
    inSoundRegion a = false := by
  simp only [switchTable, List.mem_cons, List.not_mem_nil, or_false] at mem
  rw [inSoundRegion, Bool.and_eq_false_iff, decide_eq_false_iff_not, decide_eq_false_iff_not]
  rcases mem with rfl | rfl | rfl | rfl
  all_goals
    simp only [BitVec.reduceToNat] at hlo hhi
    omega

/-- R83, R123, R125, R127, R129: in a scheme of 8-bit registers a write at an address of a switch range leaves the
byte in the range's register and holds for WR. -/
theorem exec_decodeMemWrite_byte {s : State} {a : Addr} (d : Byte) {e : SwitchEntry} (hw : bankWidth s.cfg.scheme = 8)
    (mem : e ∈ switches s) (hlo : e.lo.toNat ≤ a.toNat) (hhi : a.toNat ≤ e.hi.toNat) :
    exec (decodeMemWrite (ctxOf s) a d) s = .next (switched e.reg (d.setWidth 12) s) := by
  rw [← switchCycle_byte]
  rw [switches] at mem
  cases hs : s.cfg.scheme with
  | flat16 | flat32 | linear0 | neo8 | neo16 | none =>
    rw [hs] at hw
    exact absurd hw (by decide)
  | scc =>
    rw [hs] at mem
    have hregion := not_inSoundRegion_of_mem_scc mem hlo hhi
    simp only [decodeMemWrite, ctxOf, hs, hregion, Bool.and_false, Bool.false_eq_true, if_false]
    simp only [switchTable, List.mem_cons, List.not_mem_nil, or_false] at mem
    rcases mem with rfl | rfl | rfl | rfl
    all_goals
      rw [block_of_range hlo hhi (size := 0x800) rfl (by decide)]
      rfl
  | ascii8 =>
    simp only [decodeMemWrite, ctxOf, hs]
    simp only [hs, switchTable, List.mem_cons, List.not_mem_nil, or_false] at mem
    rcases mem with rfl | rfl | rfl | rfl
    all_goals
      rw [block_of_range hlo hhi (size := 0x800) rfl (by decide)]
      rfl
  | ascii16 =>
    simp only [decodeMemWrite, ctxOf, hs]
    simp only [hs, switchTable, List.mem_cons, List.not_mem_nil, or_false] at mem
    rcases mem with rfl | rfl
    all_goals
      rw [block_of_range hlo hhi (size := 0x800) rfl (by decide)]
      rfl
  | konami =>
    simp only [decodeMemWrite, ctxOf, hs]
    simp only [hs, switchTable, List.mem_cons, List.not_mem_nil, or_false] at mem
    rcases mem with rfl | rfl | rfl
    all_goals
      rw [block_of_range hlo hhi (size := 0x2000) rfl (by decide)]
      rfl

/-- R115, R116: a write in the mapped sound region is the row that switches nothing. -/
theorem decodeMemWrite_sound {s : State} {a : Addr} (h : soundHit s a = true) (d : Byte) :
    decodeMemWrite (ctxOf s) a d = .mwSccSound (a.setWidth 11) d := by
  simp only [soundHit, Bool.and_eq_true, beq_iff_eq] at h
  obtain ⟨⟨hs, hon⟩, hregion⟩ := h
  simp [decodeMemWrite, ctxOf, hs, hon, hregion]

/-- R116, R117: a write at an address of no entry of the scheme's switch table changes nothing. -/
theorem exec_decodeMemWrite_no_entry {s : State} {a : Addr} (d : Byte) (h : findEntry (switches s) a = none) :
    exec (decodeMemWrite (ctxOf s) a d) s = .next s := by
  cases hsound : soundHit s a with
  | true =>
    rw [decodeMemWrite_sound hsound]
    rfl
  | false =>
    have hrow : WellFormed (ctxOf s) (.mwOther a d) = true :=
      wellFormed_mwOther rfl d (fun hs => by simpa [soundHit, ctxOf, show s.cfg.scheme = .scc from hs] using hsound) h
    rw [Laws.decodeMemWrite_other _ _ _ hrow]
    rfl

/-- R69: a memory write sample is decoded by its own address and byte. -/
theorem decode_writeAt_toNat (c : Ctx) (a : Addr) (d : Byte) : decode c (writeAt a.toNat d) = decodeMemWrite c a d := by
  rw [decode_writeAt, BitVec.ofNat_toNat, BitVec.setWidth_eq]

/-- Settles O34: an address of a range has its entry in the scheme's table, and one in no entry has no switch row. -/
theorem switchRangesSelectRegisters : Obligations.SwitchRangesSelectRegisters := by
  intro s a d r
  dsimp only
  rw [decode_writeAt_toNat]
  have commits : (∃ e ∈ switches s, e.lo.toNat ≤ a.toNat ∧ a.toNat ≤ e.hi.toNat ∧ r = e.reg) →
      bankWidth s.cfg.scheme = 8 →
      exec (decodeMemWrite (ctxOf s) a d) s = .next (switched r (d.setWidth 12) s) := by
    rintro ⟨e, mem, hlo, hhi, rfl⟩ hw
    exact exec_decodeMemWrite_byte d hw mem hlo hhi
  refine ⟨?_, fun h => exec_decodeMemWrite_no_entry d (findEntry_eq_none.2 h)⟩
  rintro (⟨hs, h⟩ | ⟨hs, h⟩ | ⟨hs, h⟩ | ⟨hs, h⟩)
  all_goals exact commits (by simpa [switches, hs, switchTable] using h) (by rw [hs]; rfl)

/-! ## The fine switch writes -/

/-- R84, R131, R133: a write looked up in a table that meets R84 goes through the entry that holds the address. -/
theorem tableCycle_of_mem {nb : Nat} {t : List SwitchEntry} (ht : SwitchTableOk nb t) {e : SwitchEntry} (he : e ∈ t)
    {a : Addr} (hlo : e.lo.toNat ≤ a.toNat) (hhi : a.toNat ≤ e.hi.toNat) (d : Byte) (s : State) :
    tableCycle t a d s = switchCycle 12 e.reg e.lane d s := by
  obtain ⟨-, hdisjoint, -⟩ := ht
  simp only [tableCycle, findEntry_of_mem hdisjoint he hlo hhi]

/-- R82, R116: what the two lanes of a 12-bit register take of the byte. -/
theorem laneValue_fine {lane : Lane} (h : lane ≠ .all) (old : BankReg) (d : Byte) :
    laneValue 12 lane old d = if lane = .lo then (old &&& 0xF00) ||| d.setWidth 12
      else (old &&& 0x0FF) ||| ((d &&& 0x0F).setWidth 12 <<< 8) := by
  cases lane with
  | all => exact absurd rfl h
  | lo => rfl
  | hi => rfl

/-- R82, R84, R116: a write at an entry of a table that meets R84 writes that entry's lane and holds for WR. -/
theorem tableCycle_fine {nb : Nat} {t : List SwitchEntry} (ht : SwitchTableOk nb t) {e : SwitchEntry} (he : e ∈ t)
    {a : Addr} (hlo : e.lo.toNat ≤ a.toNat) (hhi : a.toNat ≤ e.hi.toNat) (d : Byte) (s : State) :
    tableCycle t a d s = .next (switched e.reg (if e.lane = .lo then (s.bank[e.reg] &&& 0xF00) ||| d.setWidth 12
      else (s.bank[e.reg] &&& 0x0FF) ||| ((d &&& 0x0F).setWidth 12 <<< 8)) s) := by
  have hlane : e.lane ≠ .all := (ht.1 e he).2
  rw [tableCycle_of_mem ht he hlo hhi, ← laneValue_fine hlane]
  rfl

/-- Settles O35: both fine rows are the write looked up in their table. -/
theorem fineSwitchWritesOneLane : Obligations.FineSwitchWritesOneLane := fun s _ d _ hlo hhi =>
  ⟨fun ht he => tableCycle_fine ht he hlo hhi d s, fun ht he => tableCycle_fine ht he hlo hhi d s⟩

end Sys2Proof.Machine
end

section
/-! PROOFS of the family 40_bus_signal.md: the bus is driven only under RD. -/

namespace Sys2Proof.Machine

/-- R69, R104: without RD a sample's row changes nothing, or holds for WR; the classes of a read and of noise need RD. -/
theorem exec_decode_without_rd {snap : Snapshot} {s t : State} (hrd : ¬snap.rd = true)
    (h : exec (decode (ctxOf s) snap) s = .next t) : t = s ∨ t.fsm = .writeHold := by
  obtain ⟨hnoise, -, hioRead, -, hmemRead, -, -⟩ := cycleClassOfControlSignals (ctxOf s).ioNeedsSlot snap
  cases hclass : classify (ctxOf s).ioNeedsSlot snap with
  | noise => exact absurd (hnoise.1 hclass).1 hrd
  | ioRead => exact absurd (hioRead.1 hclass).1 hrd
  | memRead => exact absurd (hmemRead.1 hclass).1 hrd
  | noCycle =>
    simp only [decode, hclass] at h
    exact .inl (Host.Outcome.next.inj h).symm
  | unselected =>
    simp only [decode, hclass, if_neg hrd] at h
    exact .inl (Host.Outcome.next.inj h).symm
  | memWrite =>
    simp only [decode, hclass] at h
    rcases exec_decodeMemWrite s snap.a snap.d with hsame | ⟨e, he⟩
    · exact .inl (Host.Outcome.next.inj (hsame.symm.trans h)).symm
    · exact .inr (Host.Outcome.next.inj (he.runs.symm.trans h) ▸ rfl)
  | ioWrite =>
    simp only [decode, hclass] at h
    rcases exec_decodeIoWrite_cases h with hsame | ⟨-, u, rfl, -⟩
    · exact .inl hsame
    · exact .inr rfl

/-- R104, R155: the FSM's part of a BUS step is in READ_HOLD after it only under RD. -/
theorem rd_of_fsmStep_readHold {snap : Snapshot} {s t : State} (h : fsmStep snap s = .next t)
    (ht : t.fsm = .readHold) : snap.rd = true := by
  by_contra hrd
  cases hfsm : s.fsm with
  | idle =>
    simp only [fsmStep, hfsm] at h
    rcases exec_decode_without_rd hrd h with rfl | hwrite
    · simp [hfsm] at ht
    · simp [hwrite] at ht
  | readHold =>
    simp only [fsmStep, hfsm, readWait, if_neg hrd] at h
    obtain rfl := Host.Outcome.next.inj h
    cases ht
  | writeHold =>
    simp only [fsmStep, hfsm, writeWait] at h
    obtain rfl := Host.Outcome.next.inj h
    split at ht
    · simp [hfsm] at ht
    · cases ht

/-- Settles O14: outside SERVE nothing is driven, a synchronous operation holds for WR by the invariant, and else the
FSM's part of the step decides. -/
theorem busDrivenOnlyUnderRead : Obligations.BusDrivenOnlyUnderRead := by
  intro s t snap hinv h hdrive
  obtain ⟨hserve, hread⟩ := (dOE_iff t).1 hdrive
  rcases busStep_cases h with ⟨rfl, hp⟩ | ⟨-, u, hu, ⟨hblocked, rfl⟩ | ⟨-, hfsm⟩⟩
  · exact absurd hserve hp
  · have hwrite : t.fsm = .writeHold := (coreInv_absorbFirst hinv hu).1.syncHold hblocked
    simp [hwrite] at hread
  · exact rd_of_fsmStep_readHold hfsm hread

end Sys2Proof.Machine
end

section
/-! PROOFS of the family 41_mapper.md: the rows of the reads and of the fixed switch writes, the SCC sound region, the
byte a window shows after a switch, and that no step stops from a state of the invariant. -/

namespace Sys2Proof.Machine

/-! ## The read rows -/

/-- R118 to R120: a row at the start of its flat window drives the payload byte at its own offset. -/
theorem flatCycle_first {s : State} (h : StoreReady s) (rel : Nat) :
    flatCycle (0x0000 + rel) s = .next (driven (payload s rel) s) := by
  rw [Nat.zero_add]
  exact flatCycle_eq h rel

/-- Settles O28: each flat row is the flat read at the start of its part of the window. -/
theorem flatReadsDrivePayload : Obligations.FlatReadsDrivePayload := fun _ off h =>
  ⟨flatCycle_first h off.toNat, flatCycle_first h off.toNat, flatCycle_eq h _,
    flatCycle_first h off.toNat, flatCycle_eq h _, flatCycle_eq h _⟩

/-- R112: a segmented read through a register within its width drives the payload byte the register maps. -/
theorem segCycle_of_lt {s : State} (h : StoreReady s) {i : Fin 6} {w : Nat} (hb : s.bank[i].toNat < 2 ^ w)
    (wsize off : Nat) :
    segCycle i w wsize off s = .next (driven (payload s (s.bank[i].toNat * wsize + off)) s) := by
  rw [segCycle_eq h, bankValue_eq hb]
  rfl

/-- Settles O29: each row is the segmented read through its own register, which is within 8 bits. -/
theorem segmented8KReadsDrivePayload : Obligations.Segmented8KReadsDrivePayload := by
  intro s off h hb
  have row (i : Fin 6) : segCycle i 8 0x2000 off.toNat s =
      .next (driven (payload s (s.bank[i].toNat * 0x2000 + off.toNat)) s) := segCycle_of_lt h (hb i) _ _
  exact ⟨row 0, row 1, row 2, row 3, row 0, row 1, row 2, row 3, row 0, row 1, row 2, row 3⟩

/-- Settles O30: each row is the segmented read through its own register, within 8 bits by hypothesis in ASCII16 and
within 12 bits always in the fine schemes. -/
theorem wideSegmentedReadsDrivePayload : Obligations.WideSegmentedReadsDrivePayload := by
  intro s off o h
  have fine (i : Fin 6) (wsize rel : Nat) : segCycle i 12 wsize rel s =
      .next (driven (payload s (s.bank[i].toNat * wsize + rel)) s) := segCycle_of_lt h s.bank[i].isLt _ _
  exact ⟨fun hb => segCycle_of_lt (i := 0) h hb _ _, fun hb => segCycle_of_lt (i := 1) h hb _ _,
    fine 0 _ _, fine 1 _ _, fine 2 _ _,
    fine 0 _ _, fine 1 _ _, fine 2 _ _, fine 3 _ _, fine 4 _ _, fine 5 _ _⟩

/-! ## The fixed switch rows -/

/-- Settles O33: each row is the switch write of the byte to its own register. -/
theorem switchRowsCommitOneRegister : Obligations.SwitchRowsCommitOneRegister := fun s _ _ d =>
  ⟨switchCycle_byte 0 d s, switchCycle_byte 1 d s, switchCycle_byte 2 d s, switchCycle_byte 3 d s,
    switchCycle_byte 1 d s, switchCycle_byte 2 d s, switchCycle_byte 3 d s,
    switchCycle_byte 0 d s, switchCycle_byte 1 d s, switchCycle_byte 2 d s, switchCycle_byte 3 d s,
    switchCycle_byte 0 d s, switchCycle_byte 1 d s⟩

/-! ## The SCC sound region -/

/-- R69: a memory read sample is decoded by its own address. -/
theorem decode_readAt_toNat (c : Ctx) (a : Addr) : decode c (readAt a.toNat) = decodeMemRead c a := by
  rw [decode_readAt, BitVec.ofNat_toNat, BitVec.setWidth_eq]

/-- R115: the three conditions under which an address is in the mapped sound region. -/
theorem soundHit_iff (s : State) (a : Addr) :
    soundHit s a = true ↔ s.cfg.scheme = .scc ∧ s.bank[2] &&& 0x3F = 0x3F ∧ inSoundRegion a = true := by
  simp [soundHit, soundOn, and_assoc]

/-- R115: a read in the mapped sound region is the row of the sound read. -/
theorem decodeMemRead_sound {s : State} {a : Addr} (h : soundHit s a = true) :
    decodeMemRead (ctxOf s) a = .mrSccSound (a.setWidth 11) := by
  simp only [soundHit, Bool.and_eq_true, beq_iff_eq] at h
  obtain ⟨⟨hs, hon⟩, hregion⟩ := h
  simp [decodeMemRead, ctxOf, hs, hon, hregion]

/-- Settles O32: the three conditions decode to the sound rows; the read is a draw, the write changes nothing. -/
theorem soundRegionIsADraw : Obligations.SoundRegionIsADraw := by
  refine ⟨fun s a d hs hbank hlo hhi => ?_, fun s _ => ⟨drawCycle s, rfl, drawCycle_cases s⟩, fun _ _ _ => rfl⟩
  have hhit : soundHit s a = true := (soundHit_iff s a).2 ⟨hs, hbank, by simp [inSoundRegion, hlo, hhi]⟩
  rw [decode_readAt_toNat, decode_writeAt_toNat]
  exact ⟨decodeMemRead_sound hhit, decodeMemWrite_sound hhit d⟩

/-! ## The byte a window shows after a switch -/

/-- R112, R122 to R132: outside the sound region a read in window `i` of a segmented scheme is the segmented read
through register `i` at the address's offset in the window. -/
theorem exec_decodeMemRead_window {s : State} {g : Geometry} (hg : geometry s.cfg.scheme = some g) {i : Fin 6}
    (hi : i.val < g.nb) {a : Addr} (hlo : g.wbase + i.val * g.wsize ≤ a.toNat)
    (hhi : a.toNat < g.wbase + (i.val + 1) * g.wsize) (hsound : soundHit s a = false) :
    exec (decodeMemRead (ctxOf s) a) s = segCycle i g.w g.wsize (a.toNat % g.wsize) s := by
  have hoff8K : a.toNat % 0x2000 = (a.setWidth 13).toNat := (BitVec.toNat_setWidth 13 a).symm
  have hoff16K : a.toNat % 0x4000 = (a.setWidth 14).toNat := (BitVec.toNat_setWidth 14 a).symm
  cases hs : s.cfg.scheme with
  | flat16 | flat32 | linear0 | none => simp [hs, geometry] at hg
  | scc =>
    obtain rfl := Option.some.inj ((congrArg geometry hs).symm.trans hg)
    have hn : ¬(soundOn s && inSoundRegion a) = true := by simpa [soundHit, hs] using hsound
    dsimp only at hi hlo hhi ⊢
    have hpage : a.toNat / 0x2000 = 2 + i.val := by omega
    have hreg : i = 0 ∨ i = 1 ∨ i = 2 ∨ i = 3 := by omega
    simp only [decodeMemRead, ctxOf, hs, if_neg hn, hpage, hoff8K]
    rcases hreg with rfl | rfl | rfl | rfl <;> rfl
  | ascii8 | konami =>
    obtain rfl := Option.some.inj ((congrArg geometry hs).symm.trans hg)
    dsimp only at hi hlo hhi ⊢
    have hpage : a.toNat / 0x2000 = 2 + i.val := by omega
    have hreg : i = 0 ∨ i = 1 ∨ i = 2 ∨ i = 3 := by omega
    simp only [decodeMemRead, ctxOf, hs, hpage, hoff8K]
    rcases hreg with rfl | rfl | rfl | rfl <;> rfl
  | neo8 =>
    obtain rfl := Option.some.inj ((congrArg geometry hs).symm.trans hg)
    dsimp only at hi hlo hhi ⊢
    have hpage : a.toNat / 0x2000 = i.val := by omega
    have hreg : i = 0 ∨ i = 1 ∨ i = 2 ∨ i = 3 ∨ i = 4 ∨ i = 5 := by omega
    simp only [decodeMemRead, ctxOf, hs, hpage, hoff8K]
    rcases hreg with rfl | rfl | rfl | rfl | rfl | rfl <;> rfl
  | ascii16 =>
    obtain rfl := Option.some.inj ((congrArg geometry hs).symm.trans hg)
    dsimp only at hi hlo hhi ⊢
    have hpage : a.toNat / 0x4000 = 1 + i.val := by omega
    have hreg : i = 0 ∨ i = 1 := by omega
    simp only [decodeMemRead, ctxOf, hs, hpage, hoff16K]
    rcases hreg with rfl | rfl <;> rfl
  | neo16 =>
    obtain rfl := Option.some.inj ((congrArg geometry hs).symm.trans hg)
    dsimp only at hi hlo hhi ⊢
    have hpage : a.toNat / 0x4000 = i.val := by omega
    have hreg : i = 0 ∨ i = 1 ∨ i = 2 := by omega
    simp only [decodeMemRead, ctxOf, hs, hpage, hoff16K]
    rcases hreg with rfl | rfl | rfl <;> rfl

/-- R83: a switch range of a scheme of 8-bit registers belongs to a register the scheme has. -/
theorem reg_lt_of_mem_switchTable {neo8 neo16 : List SwitchEntry} {sch : Scheme} {g : Geometry}
    (hg : geometry sch = some g) (hw : g.w = 8) {e : SwitchEntry} (mem : e ∈ switchTable neo8 neo16 sch) :
    e.reg.val < g.nb := by
  cases sch with
  | flat16 | flat32 | linear0 | none => cases hg
  | neo8 | neo16 =>
    obtain rfl := Option.some.inj hg
    cases hw
  | scc | ascii8 | konami | ascii16 =>
    obtain rfl := Option.some.inj hg
    simp only [switchTable, List.mem_cons, List.not_mem_nil, or_false] at mem
    rcases mem with rfl | rfl | rfl | rfl <;> decide

/-- The state a switch write of the byte `v` to register `r` leaves once WR is inactive (R116, R156). -/
abbrev afterSwitch (r : Fin 6) (v : Byte) (s : State) : State := release (switched r (v.setWidth 12) s)

/-- R115: a byte maps the sound region from an SCC register only when its own low six bits are all 1. -/
theorem soundBits_setWidth {v : Byte} (h : v.setWidth 12 &&& 0x3F = (0x3F : BankReg)) : v &&& 0x3F = 0x3F := by
  simpa [BitVec.setWidth_and] using congrArg (BitVec.setWidth 8) h

/-- R115: register 2 alone maps the sound region, and only its own window reaches into it. -/
theorem soundHit_afterSwitch {s : State} {g : Geometry} (hg : geometry s.cfg.scheme = some g) {r : Fin 6} {v : Byte}
    {a : Addr} (hlo : g.wbase + r.val * g.wsize ≤ a.toNat) (hhi : a.toNat < g.wbase + (r.val + 1) * g.wsize)
    (hn : ¬(s.cfg.scheme = .scc ∧ v &&& 0x3F = 0x3F ∧ inSoundRegion a = true)) :
    soundHit (afterSwitch r v s) a = false := by
  by_contra hhit
  obtain ⟨hs, hbank, hregion⟩ := (soundHit_iff _ a).1 (Bool.eq_true_of_not_eq_false hhit)
  obtain rfl := Option.some.inj ((congrArg geometry hs).symm.trans hg)
  have hr : r = 2 := by
    simp only [inSoundRegion, Bool.and_eq_true, decide_eq_true_eq] at hregion
    dsimp only at hlo hhi
    omega
  subst hr
  exact hn ⟨hs, soundBits_setWidth (by simpa using hbank), hregion⟩

/-- R39 item 7: the byte a switch write leaves in a register. -/
theorem afterSwitch_bank_toNat (r : Fin 6) (v : Byte) (s : State) :
    (afterSwitch r v s).bank[r].toNat = v.toNat := by
  rw [afterSwitch, release_bank, Fin.getElem_fin, Vector.getElem_set_self, BitVec.toNat_setWidth_of_le (by decide)]

/-- Settles O37: the write leaves the byte in the register, and after the release the read goes through it. -/
theorem switchThenReadSeesBank : Obligations.SwitchThenReadSeesBank := by
  intro s g e aw ar v hstore hg hw mem hlo hhi hrlo hrhi hn
  have hwidth : bankWidth s.cfg.scheme = 8 := by simpa only [bankWidth, hg] using hw
  have hreg : e.reg.val < g.nb := reg_lt_of_mem_switchTable hg hw mem
  have hbank := afterSwitch_bank_toNat e.reg v s
  have hsound : soundHit (afterSwitch e.reg v s) ar = false := soundHit_afterSwitch hg hrlo hrhi hn
  have hready : StoreReady (afterSwitch e.reg v s) := ⟨hstore.payloadInStore, hstore.cacheCopies⟩
  refine ⟨switched e.reg (v.setWidth 12) s,
    driven (payload s (v.toNat * g.wsize + ar.toNat % g.wsize)) (afterSwitch e.reg v s), ?_, ?_, rfl, rfl⟩
  · rw [decode_writeAt_toNat]
    exact exec_decodeMemWrite_byte v hwidth mem hlo hhi
  · rw [decode_readAt_toNat, exec_decodeMemRead_window (s := afterSwitch e.reg v s) hg hreg hrlo hrhi hsound, hw,
      segCycle_of_lt hready (hbank.trans_lt v.isLt), ← hbank]
    rfl

/-! ## No step stops -/

/-- R137, R162: the machine goes on, with no fault and no refusal. -/
abbrev Answers (o : Host.Outcome State Fault Refusal) : Prop := ∃ t, o = .next t

/-- R114, R115, R144: a memory read answers in the windows, in the sound region and outside both. -/
theorem answers_decodeMemRead {s : State} (h : StoreReady s) (a : Addr) :
    Answers (exec (decodeMemRead (ctxOf s) a) s) := by
  cases hsound : soundHit s a with
  | true =>
    rw [decodeMemRead_sound hsound]
    exact ⟨drawCycle s, rfl⟩
  | false =>
    cases hw : inWindows s.cfg.scheme a with
    | true =>
      obtain ⟨rel, hrel⟩ := exec_decodeMemRead_inWindows hw hsound
      exact ⟨_, hrel.trans (serveRead_bounded h rel)⟩
    | false =>
      have hrow : WellFormed (ctxOf s) (.memReadUnserved a) = true := by simp [WellFormed, ctxOf, hw]
      rw [Laws.decodeMemRead_unserved _ _ hrow]
      exact ⟨s, rfl⟩

/-- R116, R117: a memory write answers, through a switch range or not. -/
theorem answers_decodeMemWrite (s : State) (a : Addr) (d : Byte) : Answers (exec (decodeMemWrite (ctxOf s) a d) s) := by
  rcases exec_decodeMemWrite s a d with hsame | ⟨e, he⟩
  · exact ⟨s, hsame⟩
  · exact ⟨_, he.runs⟩

/-- R170, R171: a command answers, pending or not. -/
theorem answers_commandCycle (d : Byte) (body : Bool → Dir → State → State) (s : State) :
    Answers (commandCycle d body s) := by
  cases hp : pending s.br with
  | true => exact ⟨_, commandCycle_pending hp d body⟩
  | false => exact ⟨_, commandCycle_runs hp d body⟩

/-- R170 to R183: every control-port write of the bridge answers. -/
theorem answers_decodeCommand (d : Byte) (s : State) : Answers (exec (decodeCommand d) s) := by
  unfold decodeCommand
  split
  · exact answers_commandCycle _ (fun _ _ => cmdInit) s
  · exact answers_commandCycle _ (fun _ _ => cmdGetId) s
  · exact answers_commandCycle _ (fun _ _ => cmdGetCap) s
  · exact answers_commandCycle _ (fun _ _ => cmdBlock .read) s
  · exact answers_commandCycle _ cmdReadNext s
  · exact answers_commandCycle _ (fun _ _ => cmdBlock .write) s
  · exact answers_commandCycle _ cmdWriteNext s
  · exact ⟨holdWrite s, rfl⟩

/-- R184 to R189: a data-port write answers, since less than an LBA and less than a block are collected
(R39 item 5). -/
theorem answers_dataWriteCycle {s : State} (h : CoreInv s) (d : Byte) : Answers (dataWriteCycle d s) := by
  cases hs : s.br.state with
  | awaitAddr =>
    rw [dataWriteCycle_awaitAddr hs]
    rcases Nat.lt_or_eq_of_le (Nat.le_of_lt_succ (h.address hs)) with hmore | hlast
    · exact ⟨_, addrByte_more hmore d⟩
    · exact ⟨_, addrByte_last hlast d⟩
  | awaitPayload =>
    rw [dataWriteCycle_awaitPayload hs]
    rcases Nat.lt_or_eq_of_le (Nat.le_of_lt_succ (h.payload hs)) with hmore | hlast
    · exact ⟨_, payloadByte_more hmore d⟩
    · exact ⟨_, payloadByte_last hlast d⟩
  | idle | sending | readPending | writePending => exact ⟨holdWrite s, by simp only [dataWriteCycle, hs]⟩

/-- R196: a data-port read in SENDING answers, since bytes remain and lie in the buffer (R39 item 4). -/
theorem answers_sendingCycle {s : State} (h : CoreInv s) (hs : s.br.state = .sending) : Answers (sendingCycle s) := by
  obtain ⟨hremain, hfit⟩ := h.sending hs
  obtain ⟨b, hb⟩ := s.br.buf.byte_of_lt (k := s.br.cursor) (by omega)
  exact ⟨_, sendingCycle_eq hb hremain⟩

/-- R158, R195 to R197: an I/O read answers. -/
theorem answers_decodeIoRead {s : State} (h : CoreInv s) (a : Addr) : Answers (exec (decodeIoRead (ctxOf s) a) s) := by
  unfold decodeIoRead
  split
  · exact ⟨s, rfl⟩
  · split
    · exact ⟨_, rfl⟩
    · split
      · split
        next hs => exact answers_sendingCycle h (by simpa [ctxOf] using hs)
        next => exact ⟨_, rfl⟩
      · exact ⟨s, rfl⟩

/-- R158, R170, R184: an I/O write answers. -/
theorem answers_decodeIoWrite {s : State} (h : CoreInv s) (a : Addr) (d : Byte) :
    Answers (exec (decodeIoWrite (ctxOf s) a d) s) := by
  unfold decodeIoWrite
  split
  · exact ⟨s, rfl⟩
  · split
    · exact answers_decodeCommand d s
    · split
      · exact answers_dataWriteCycle h d
      · exact ⟨s, rfl⟩

/-- R150: in SERVE the row of every sample answers. -/
theorem answers_decode {s : State} (h : CoreInv s) (hp : s.phase = .serve) (snap : Snapshot) :
    Answers (exec (decode (ctxOf s) snap) s) := by
  unfold decode
  split
  · exact ⟨s, rfl⟩
  · exact ⟨s, rfl⟩
  · split
    · exact ⟨s, rfl⟩
    · exact ⟨s, rfl⟩
  · exact answers_decodeMemRead (h.served hp).store snap.a
  · exact answers_decodeMemWrite s snap.a snap.d
  · exact answers_decodeIoRead h snap.a
  · exact answers_decodeIoWrite h snap.a snap.d

/-- R150, R155, R156: the FSM's part of a BUS step answers. -/
theorem answers_fsmStep {s : State} (h : CoreInv s) (hp : s.phase = .serve) (snap : Snapshot) :
    Answers (fsmStep snap s) := by
  unfold fsmStep
  split
  · exact ⟨_, rfl⟩
  · exact ⟨_, rfl⟩
  · exact answers_decode h hp snap

/-- R214: the absorption of a completion answers, since only a pending session has a result (R39 item 2). -/
theorem answers_absorb {s : State} (h : CoreInv s) : Answers (absorb s) := by
  unfold absorb
  split
  · exact ⟨s, rfl⟩
  · split
    · exact ⟨s, rfl⟩
    · exact ⟨_, rfl⟩
    · rename_i hready
      have hpending : pending s.br = true := h.pendingIff.2 (.inr (by simp [hready]))
      split
      · exact ⟨_, rfl⟩
      · exact ⟨_, rfl⟩
      all_goals
        rename_i hs
        simp [pending, hs] at hpending

/-- R150: the first part of a BUS step answers. -/
theorem answers_absorbFirst {s : State} (h : CoreInv s) : Answers (absorbFirst s) := by
  unfold absorbFirst
  split
  · exact answers_absorb h
  · exact ⟨s, rfl⟩

/-- R150, R159, R160: a BUS step answers; the FSM's part runs from the state the absorption leaves, which meets the
invariant again. -/
theorem answers_busStep {s : State} (h : CoreInv s) (snap : Snapshot) : Answers (busStep snap s) := by
  cases hp : s.phase with
  | boot | halt => exact ⟨s, by simp only [busStep, hp]⟩
  | serve =>
    obtain ⟨t, ht⟩ := answers_absorbFirst h
    obtain ⟨hinv, hphase⟩ := coreInv_absorbFirst h ht
    simp only [busStep, hp, ht]
    split
    · exact ⟨t, rfl⟩
    · exact answers_fsmStep hinv (hphase.trans hp) snap

/-- R234: every event answers; only the BUS step can stop at all. -/
theorem answers_runEvent {s : State} (h : CoreInv s) (e : Event) : Answers (runEvent e s) := by
  cases e with
  | sample pins => exact answers_busStep h _
  | bootStep | complete | mount | remove | reset => exact ⟨_, rfl⟩

/-- Settles O23: the event is taken from the offers, and every event answers. -/
theorem stepNeverStops : Obligations.StepNeverStops := by
  intro s h
  obtain ⟨inputs, hs⟩ := takeEvent_state s
  rw [step, hs]
  exact answers_runEvent (coreInv_setInputs h inputs) _

end Sys2Proof.Machine
end

section
/-! PROOFS. The store resolver (42_backing_store.md): inside the payload the cached and the direct path agree. -/

namespace Sys2Proof.Machine

/-- Inside the payload, the byte it shows is the store's byte at that offset (R65, R113). -/
theorem payload_of_lt {s : State} {rel : Nat} (hr : rel < s.cfg.romSize.toNat) :
    payload s rel = Memory.read s.par.store (s.cfg.romBase.toNat + rel) := if_pos hr

/-- Settles O24: an offset of the payload is `rom_base + rel`, where the resolver gives the byte the payload shows. -/
theorem resolveReadsStore : Obligations.ResolveReadsStore := by
  intro s h off hlo hhi
  obtain ⟨rel, rfl⟩ := Nat.exists_eq_add_of_le hlo
  have hr : rel < s.cfg.romSize.toNat := Nat.lt_of_add_lt_add_left hhi
  rw [resolve_payload h hr, payload_of_lt hr]

end Sys2Proof.Machine
end

section
/-! PROOFS of the family 43_transaction_loop.md: the decoded rows refine the spec's pseudocode, a held strobe is served
once, and what a BUS step does in each phase, in each hold and under a synchronous operation. -/

namespace Sys2Proof.Machine

/-! ## Cycles that are not served -/

/-- Settles O27: each of these rows answers the state it is run in. -/
theorem unservedRowsChangeNothing : Obligations.UnservedRowsChangeNothing := fun _ _ _ _ _ _ =>
  ⟨rfl, rfl, rfl, rfl, rfl, rfl, rfl, rfl⟩

/-! ## The parts of a BUS step -/

/-- R159: outside SERVE a BUS step does nothing. -/
theorem busStep_of_not_serve {s : State} (hp : s.phase ≠ .serve) (snap : Snapshot) : busStep snap s = .next s := by
  unfold busStep
  split
  · rfl
  · rfl
  · contradiction

/-- R160: in SERVE a BUS step ends with the absorption while a synchronous operation runs. -/
theorem busStep_of_blocked {s t : State} (hp : s.phase = .serve) (ht : absorbFirst s = .next t)
    (hb : syncBlocked t = true) (snap : Snapshot) : busStep snap s = .next t := by
  simp only [busStep, hp, ht, hb, if_true]

/-- R150: in SERVE a BUS step goes on with the FSM when no synchronous operation runs. -/
theorem busStep_of_not_blocked {s t : State} (hp : s.phase = .serve) (ht : absorbFirst s = .next t)
    (hb : syncBlocked t = false) (snap : Snapshot) : busStep snap s = fsmStep snap t := by
  simp only [busStep, hp, ht, hb, Bool.false_eq_true, if_false]

/-- R155: in READ_HOLD the FSM waits for RD. -/
theorem fsmStep_readHold {s : State} (h : s.fsm = .readHold) (snap : Snapshot) :
    fsmStep snap s = .next (if snap.rd then s else release s) := by simp only [fsmStep, h, readWait]

/-- R156: in WRITE_HOLD the FSM waits for WR. -/
theorem fsmStep_writeHold {s : State} (h : s.fsm = .writeHold) (snap : Snapshot) :
    fsmStep snap s = .next (if snap.wr then s else release s) := by simp only [fsmStep, h, writeWait]

/-- R150: in IDLE the FSM runs the row of the sample. -/
theorem fsmStep_idle {s : State} (h : s.fsm = .idle) (snap : Snapshot) :
    fsmStep snap s = exec (decode (ctxOf s) snap) s := by simp only [fsmStep, h]

/-- R214: no result of the coordinator waits to be absorbed. -/
def NothingWaits (co : Coord) : Prop := co.inFlight = true ∨ co.result = .none

/-- R214: with no result waiting the absorption does nothing. -/
theorem absorb_of_nothingWaits {s : State} (h : NothingWaits s.co) : absorb s = .next s := by
  unfold absorb
  split
  next => rfl
  next hf =>
    have hr : s.co.result = .none := h.resolve_left hf
    simp only [hr]

/-- R150, R214: the first part of a BUS step does nothing when no result waits, or outside configuration 10. -/
theorem absorbFirst_of_nothingWaits {s : State} (h : s.cfg.bridgeEn = true → NothingWaits s.co) :
    absorbFirst s = .next s := by
  unfold absorbFirst
  split
  next hb => exact absorb_of_nothingWaits (h hb)
  next => rfl

/-- Settles O11: BOOT and HALT answer the state as it is, which drives nothing and by the invariant is in no hold. -/
theorem nothingServedOutsideServe : Obligations.NothingServedOutsideServe := fun s snap hp =>
  ⟨busStep_of_not_serve hp snap, Bool.eq_false_of_not_eq_true fun h => hp ((dOE_iff s).1 h).1,
    fun hinv => by_contra fun hfsm => hp (hinv.holdsInServe hfsm)⟩

/-- Settles O12: nothing waits while the operation is in flight, so a BUS step in SERVE ends at the block; the
invariant has the FSM in WRITE_HOLD, which drives nothing. -/
theorem syncOperationBlocksBus : Obligations.SyncOperationBlocksBus := by
  intro s snap hinv hsync hflight
  have hblocked : syncBlocked s = true := by simp [syncBlocked, hsync, hflight]
  have hwrite : s.fsm = .writeHold := hinv.syncHold hblocked
  constructor
  · by_cases hp : s.phase = .serve
    · exact busStep_of_blocked hp (absorbFirst_of_nothingWaits fun _ => .inl hflight) hblocked snap
    · exact busStep_of_not_serve hp snap
  · simp [dOE, hwrite]

/-- Settles O10: the step is the FSM's wait in the state the absorption leaves, and IDLE drives nothing. -/
theorem holdsWaitForTheirStrobe : Obligations.HoldsWaitForTheirStrobe := by
  intro s t snap hp ht hb
  rw [busStep_of_not_blocked hp ht hb]
  exact ⟨fun h => fsmStep_readHold h snap, fun h => fsmStep_writeHold h snap, by simp [dOE]⟩

/-! ## The step on a sample -/

/-- R100: a sample offered alone is taken by a BUS step on its logical snapshot. -/
theorem step_sample {s : State} {pins : SampleWord} {later : List Instant} (h : s.inputs = [.sample pins] :: later) :
    step s = busStep (sampleBus s.par pins) (setInputs later s) := by
  simp only [step, takeEvent, h, pickEvent, remainingInputs, runEvent, setInputs_par]

/-- R150: in SERVE and IDLE, with nothing to absorb and no synchronous operation, a BUS step runs the sample's row. -/
theorem busStep_polling {s : State} (hp : s.phase = .serve) (hf : s.fsm = .idle)
    (hw : s.cfg.bridgeEn = true → NothingWaits s.co) (hb : syncBlocked s = false) (snap : Snapshot) :
    busStep snap s = exec (decode (ctxOf s) snap) s := by
  rw [busStep_of_not_blocked hp (absorbFirst_of_nothingWaits hw) hb, fsmStep_idle hf]

/-- Settles O6: the offers are no part of what a BUS step tests or the decoder reads. -/
theorem stepRunsDecodedRow : Obligations.StepRunsDecodedRow := by
  intro s pins later h
  refine ⟨step_sample h, fun hp hf hr hb => ⟨wellFormed_decode _ _, ?_⟩⟩
  rw [step_sample h]
  exact busStep_polling (s := setInputs later s) hp hf (fun he => .inr (hr he)) hb _

/-! ## A placed table word -/

/-- What the table decoder reads: a sample word, decoded in the context of the word itself (log 6). -/
theorem decode_of_decodeTableWord {nbits w : Nat} {i : Instr} (h : decodeTableWord nbits w = some i) :
    let snap := Snapshot.ofWord (BitVec.ofNat 28 (w % 2 ^ nbits))
    decode (tableCtx snap) snap = i := by
  simp only [decodeTableWord, decodeWord] at h
  split at h
  next j hj =>
    split at hj
    next => exact (Except.ok.inj hj).trans (Option.some.inj h)
    next => cases hj
  next => cases h

/-- R131, R133: the switch tables of the fine schemes are read for memory writes of those schemes only. -/
theorem decode_congr_switchTables {c : Ctx} {snap : Snapshot}
    (h : classify c.ioNeedsSlot snap = .memWrite → c.scheme ≠ .neo8 ∧ c.scheme ≠ .neo16)
    (t8 t16 : List SwitchEntry) :
    decode { c with neo8Switch := t8, neo16Switch := t16 } snap = decode c snap := by
  unfold decode
  cases hclass : classify c.ioNeedsSlot snap with
  | memWrite =>
    obtain ⟨h8, h16⟩ := h hclass
    cases hs : c.scheme with
    | neo8 => exact absurd hs h8
    | neo16 => exact absurd hs h16
    | flat16 | flat32 | linear0 | scc | ascii8 | ascii16 | konami | none => simp only [decodeMemWrite, hs]
  | noise | noCycle | unselected | memRead | ioRead | ioWrite => rfl

/-- Log 6: no memory write of the table is read in a fine scheme. -/
theorem tableScheme_memWrite {snap : Snapshot} (h : classify false snap = .memWrite) :
    tableScheme snap ≠ .neo8 ∧ tableScheme snap ≠ .neo16 := by
  simp only [tableScheme, h]
  split
  case h_9 => split <;> decide
  all_goals decide

/-- Log 5: bank register 2 is written only where the sound enable must change. -/
theorem serveIn_bank (c : Ctx) (s : State) : (serveIn c s).bank =
    if soundOn s == c.soundOn then s.bank else s.bank.set 2 (if c.soundOn then 0x03F else 0x002) := rfl

/-- Log 5: the sound enable of the machine set up for a context is that of the context (R115). -/
theorem soundOn_serveIn (c : Ctx) (s : State) : soundOn (serveIn c s) = c.soundOn := by
  rw [soundOn, serveIn_bank]
  split
  next h => exact beq_iff_eq.1 h
  next =>
    rw [Vector.getElem_set_self]
    cases c.soundOn <;> rfl

/-- Log 5: the machine set up for a context at rest is in that context, but for its own fine switch tables. -/
theorem ctxOf_serveIn {c : Ctx} (h : c.sending = false) (s : State) :
    ctxOf (serveIn c s) = { c with neo8Switch := s.par.neo8Switch, neo16Switch := s.par.neo16Switch } := by
  have hsound := soundOn_serveIn c s
  cases c
  subst h
  simp only [ctxOf, hsound]
  rfl

/-- Logs 5, 6: the machine set up for a table word decodes it as the table decoder does. -/
theorem decode_serveIn_tableCtx (snap : Snapshot) (s : State) :
    decode (ctxOf (serveIn (tableCtx snap) s)) snap = decode (tableCtx snap) snap := by
  rw [ctxOf_serveIn rfl]
  exact decode_congr_switchTables (c := tableCtx snap) tableScheme_memWrite _ _

/-- Log 5: the machine set up for a context polls, with nothing to absorb and no operation running. -/
theorem busStep_serveIn (c : Ctx) (s : State) (snap : Snapshot) :
    busStep snap (serveIn c s) = exec (decode (ctxOf (serveIn c s)) snap) (serveIn c s) :=
  busStep_polling rfl rfl (fun _ => .inr rfl) (by simp [syncBlocked, serveIn]) snap

/-- Log 5: the step after a word is placed is a BUS step on that word, the machine set up for it. -/
theorem step_withFetchWord (s : State) (nbits w : Nat) :
    let snap := Snapshot.ofWord (BitVec.ofNat 28 (w % 2 ^ nbits))
    step (s.withFetchWord nbits w) = busStep snap (serveIn (tableCtx snap) s) := by
  intro snap
  rw [step_sample (s := s.withFetchWord nbits w) rfl, show (s.withFetchWord nbits w).par =
    (serveIn (tableCtx snap) s).par from rfl, sampleBus_pinsOf]
  rfl

/-- Settles O7: the placed state polls in the word's own context, so the step runs the row the table decoder reads. -/
theorem placedWordIsRun : Obligations.PlacedWordIsRun := by
  intro s nbits w i h
  refine ⟨serveIn (tableCtx (Snapshot.ofWord (BitVec.ofNat 28 (w % 2 ^ nbits)))) s, rfl, rfl, rfl, ?_⟩
  rw [step_withFetchWord, busStep_serveIn, decode_serveIn_tableCtx, decode_of_decodeTableWord h]

/-! ## The decoded row of a memory read is MapRead -/

/-- R114: outside the windows a memory read is unserved. -/
theorem exec_decodeMemRead_outside {s : State} {a : Addr} (h : inWindows s.cfg.scheme a = false) :
    exec (decodeMemRead (ctxOf s) a) s = .next s := by
  have hrow : WellFormed (ctxOf s) (.memReadUnserved a) = true := by simp [WellFormed, ctxOf, h]
  rw [Laws.decodeMemRead_unserved _ _ hrow]
  rfl

/-- R111: a flat row whose part of the window starts at offset `base` reads at the offset of the whole address. -/
theorem flatCycle_setWidth {a : Addr} {base rel : Nat} (h : base + a.toNat % 0x4000 = rel) (s : State) :
    flatCycle (base + (a.setWidth 14).toNat) s = flatCycle rel s := by
  rw [BitVec.toNat_setWidth, h]

/-- R111, R118 to R120: a read in the window of a flat scheme is the flat read at the address less its first. -/
theorem exec_decodeMemRead_flat {s : State} {first last : Nat} (hw : flatWindow s.cfg.scheme = some (first, last))
    {a : Addr} (hlo : first ≤ a.toNat) (hhi : a.toNat ≤ last) :
    exec (decodeMemRead (ctxOf s) a) s = flatCycle (a.toNat - first) s := by
  cases hs : s.cfg.scheme with
  | scc | ascii8 | ascii16 | konami | neo8 | neo16 | none => simp [hs, flatWindow] at hw
  | flat16 =>
    obtain ⟨rfl, rfl⟩ := Prod.mk.inj (Option.some.inj ((congrArg flatWindow hs).symm.trans hw))
    have hpage : a.toNat / 0x4000 = 1 := by omega
    simp only [decodeMemRead, ctxOf, hs, hpage]
    exact flatCycle_setWidth (by omega) s
  | flat32 =>
    obtain ⟨rfl, rfl⟩ := Prod.mk.inj (Option.some.inj ((congrArg flatWindow hs).symm.trans hw))
    have hpage : a.toNat / 0x4000 = 1 ∨ a.toNat / 0x4000 = 2 := by omega
    rcases hpage with hk | hk
    all_goals
      simp only [decodeMemRead, ctxOf, hs, hk]
      exact flatCycle_setWidth (by omega) s
  | linear0 =>
    obtain ⟨rfl, rfl⟩ := Prod.mk.inj (Option.some.inj ((congrArg flatWindow hs).symm.trans hw))
    have hpage : a.toNat / 0x4000 = 0 ∨ a.toNat / 0x4000 = 1 ∨ a.toNat / 0x4000 = 2 := by omega
    rcases hpage with hk | hk | hk
    all_goals
      simp only [decodeMemRead, ctxOf, hs, hk]
      exact flatCycle_setWidth (by omega) s

/-- R21, R80: a segmented scheme has at most the six registers of the bank file, and windows of a power of two. -/
theorem geometry_bounds {sch : Scheme} {g : Geometry} (hg : geometry sch = some g) :
    g.nb ≤ 6 ∧ ∃ k, g.wsize = 2 ^ k := by
  cases sch with
  | flat16 | flat32 | linear0 | none => cases hg
  | scc | ascii8 | konami | neo8 =>
    obtain rfl := Option.some.inj hg
    exact ⟨by decide, 13, rfl⟩
  | ascii16 | neo16 =>
    obtain rfl := Option.some.inj hg
    exact ⟨by decide, 14, rfl⟩

/-- R112: register `i` read by its number. -/
theorem bankAt_fin (s : State) (i : Fin 6) : bankAt s i.val = s.bank[i].toNat := by
  simp [bankAt]

/-- R112: inside the windows `SegRead` is the segmented read through the register of the address's window. -/
theorem segRead_window {s : State} {g : Geometry} {i : Fin 6} {k : Nat} (hk : g.wsize = 2 ^ k) {a : Nat}
    (hlo : g.wbase ≤ a) (hhi : a < g.wbase + g.nb * g.wsize) (hi : i.val = (a - g.wbase) / g.wsize) :
    serveRead (segRead s g a) s = segCycle i g.w g.wsize (a % g.wsize) s := by
  have hin : ¬(a < g.wbase ∨ g.wbase + g.nb * g.wsize ≤ a) := by omega
  rw [segRead, if_neg hin, ← hi, bankAt_fin, hk, Nat.and_two_pow_sub_one_eq_mod]
  rfl

/-- R112, R122 to R132: outside the sound region a read in the windows of a segmented scheme is `SegRead`. -/
theorem exec_decodeMemRead_seg {s : State} {g : Geometry} (hg : geometry s.cfg.scheme = some g) {a : Addr}
    (hlo : g.wbase ≤ a.toNat) (hhi : a.toNat < g.wbase + g.nb * g.wsize) (hsound : soundHit s a = false) :
    exec (decodeMemRead (ctxOf s) a) s = serveRead (segRead s g a.toNat) s := by
  obtain ⟨hnb, k, hk⟩ := geometry_bounds hg
  have hpos : 0 < g.wsize := hk ▸ Nat.two_pow_pos k
  have hi : (a.toNat - g.wbase) / g.wsize < g.nb := (Nat.div_lt_iff_lt_mul hpos).2 (by omega)
  have hfirst := Nat.div_mul_le_self (a.toNat - g.wbase) g.wsize
  have hlast := Nat.lt_mul_div_succ (a.toNat - g.wbase) hpos
  rw [Nat.mul_comm] at hlast
  rw [segRead_window (i := ⟨(a.toNat - g.wbase) / g.wsize, hi.trans_le hnb⟩) hk hlo hhi rfl]
  exact exec_decodeMemRead_window hg hi (by dsimp only; omega) (by dsimp only; omega) hsound

/-- R110 to R115, R152: the row of a memory read serves what `MapRead` says of its address. -/
theorem exec_decodeMemRead_eq_memReadCycle (s : State) (a : Addr) :
    exec (decodeMemRead (ctxOf s) a) s = memReadCycle a s := by
  unfold memReadCycle mapRead
  split
  next hsound =>
    rw [decodeMemRead_sound hsound]
    rfl
  next hsound =>
    have hsound : soundHit s a = false := by simpa using hsound
    split
    next w _ hw =>
      unfold flatRead
      split
      next hout => exact exec_decodeMemRead_outside (by simp [inWindows, hw]; omega)
      next hin => exact exec_decodeMemRead_flat hw (by omega) (by omega)
    next g hw hg =>
      by_cases hin : g.wbase ≤ a.toNat ∧ a.toNat < g.wbase + g.nb * g.wsize
      · exact exec_decodeMemRead_seg hg hin.1 hin.2 hsound
      · rw [segRead, if_pos (by omega)]
        exact exec_decodeMemRead_outside (by simp [inWindows, hw, hg]; omega)
    next hw hg => exact exec_decodeMemRead_outside (by simp [inWindows, hw, hg])

/-! ## The decoded row of a memory write is MapWrite -/

/-- R131, R133: a write looked up in a table goes through the entry found. -/
theorem tableCycle_of_findEntry {t : List SwitchEntry} {a : Addr} {e : SwitchEntry} (h : findEntry t a = some e)
    (d : Byte) (s : State) : tableCycle t a d s = switchCycle 12 e.reg e.lane d s := by
  simp only [tableCycle, h]

/-- R116, R123 to R133: a write at an address with an entry in the scheme's switch table goes through the first such
entry. -/
theorem exec_decodeMemWrite_entry {s : State} {a : Addr} (d : Byte) {e : SwitchEntry}
    (h : findEntry (switches s) a = some e) :
    exec (decodeMemWrite (ctxOf s) a d) s = switchCycle (bankWidth s.cfg.scheme) e.reg e.lane d s := by
  obtain ⟨mem, hlo, hhi⟩ := mem_of_findEntry h
  cases hs : s.cfg.scheme with
  | flat16 | flat32 | linear0 | none => simp [switches, hs, switchTable] at mem
  | scc | ascii8 | ascii16 | konami =>
    have hw : bankWidth s.cfg.scheme = 8 := by rw [hs]; rfl
    have hlane : e.lane = .all := (lane_of_mem_switchTable mem).resolve_left (by rw [hw]; decide)
    rw [exec_decodeMemWrite_byte d hw mem hlo hhi, hlane]
    exact (switchCycle_byte e.reg d s).symm
  | neo8 | neo16 =>
    simp only [switches, hs, switchTable] at h
    simp only [decodeMemWrite, ctxOf, hs, h, Option.isSome_some, if_true]
    exact tableCycle_of_findEntry h d s

/-- R116, R117, R154: the row of a memory write commits what `MapWrite` says of its address and byte. -/
theorem exec_decodeMemWrite_eq_memWriteCycle (s : State) (a : Addr) (d : Byte) :
    exec (decodeMemWrite (ctxOf s) a d) s = memWriteCycle a d s := by
  cases hsound : soundHit s a with
  | true =>
    rw [decodeMemWrite_sound hsound, memWriteCycle, mapWrite, if_pos hsound]
    rfl
  | false =>
    rw [memWriteCycle, mapWrite, hsound]
    cases hfind : findEntry (switches s) a with
    | none => simpa [hfind] using exec_decodeMemWrite_no_entry d hfind
    | some e => simpa [hfind, switchCycle] using exec_decodeMemWrite_entry d hfind

/-! ## The decoded rows of the two ports -/

/-- R158, R170, R171: a recognised command's cycle is the dispatch of its byte, held for WR. -/
theorem commandCycle_eq_command {d : Byte} (hd : recognised d = true) (s : State) :
    commandCycle d (commandBody d) s = .next (holdWrite (command d s)) := by
  unfold command
  split
  next hp => exact commandCycle_pending hp d _
  next hp =>
    rw [commandCycle_runs (Bool.eq_false_of_not_eq_true hp), hd]
    rfl

/-- R171, R183: an unrecognised byte is a command that changes nothing. -/
theorem command_unrecognised {d : Byte} (hd : recognised d = false) (s : State) : command d s = s := by
  simp [command, hd]

/-- R158, R170 to R183: the row of a control-port write is the dispatch of its whole byte, held for WR. -/
theorem exec_decodeCommand_eq_command (d : Byte) (s : State) :
    exec (decodeCommand d) s = .next (holdWrite (command d s)) := by
  cases hd : recognised d with
  | false =>
    rw [Laws.decodeCommand_unrecognised d hd, command_unrecognised hd]
    rfl
  | true =>
    rw [← commandCycle_eq_command hd]
    simp only [recognised, Bool.or_eq_true, decide_eq_true_eq, or_assoc] at hd
    rcases hd with rfl | rfl | rfl | rfl | rfl | rfl | rfl
    all_goals rfl

/-- R196, R197: the row of a data-port read is told apart by the session's state. -/
theorem exec_dataRead_eq (s : State) : exec (if (ctxOf s).sending then .irDataSending else .irDataOther) s =
    if s.br.state = .sending then sendingCycle s else .next (drive Config.sentinel s) := by
  by_cases h : s.br.state = .sending
  · rw [if_pos h, if_pos (show (ctxOf s).sending = true by simp [ctxOf, h])]
    rfl
  · rw [if_neg h, if_neg (show ¬(ctxOf s).sending = true by simp [ctxOf, h])]
    rfl

/-- R158, R195 to R197: the row of an I/O read is `IoReadCycle`. -/
theorem exec_decodeIoRead_eq_ioReadCycle (s : State) (a : Addr) :
    exec (decodeIoRead (ctxOf s) a) s = ioReadCycle (portOf a) s := by
  unfold decodeIoRead
  split
  next hb => exact (if_pos hb).symm
  next hb =>
    refine .trans ?_ (if_neg hb).symm
    split
    next hc => exact (if_pos hc).symm
    next hc =>
      refine .trans ?_ (if_neg hc).symm
      split
      next hd => exact (exec_dataRead_eq s).trans (if_pos hd).symm
      next hd => exact (if_neg hd).symm

/-- R158, R170, R184: the row of an I/O write is `IoWriteCycle`. -/
theorem exec_decodeIoWrite_eq_ioWriteCycle (s : State) (a : Addr) (d : Byte) :
    exec (decodeIoWrite (ctxOf s) a d) s = ioWriteCycle (portOf a) d s := by
  unfold decodeIoWrite
  split
  next hb => exact (if_pos hb).symm
  next hb =>
    refine .trans ?_ (if_neg hb).symm
    split
    next hc => exact (exec_decodeCommand_eq_command d s).trans (if_pos hc).symm
    next hc =>
      refine .trans ?_ (if_neg hc).symm
      split
      next hd => exact (if_pos hd).symm
      next hd => exact (if_neg hd).symm

/-- Settles O8, by the class of the cycle: one lemma for each class that carries an address. -/
theorem decodedRowsRefinePseudocode : Obligations.DecodedRowsRefinePseudocode := by
  intro s snap
  have hslot : (ctxOf s).ioNeedsSlot = s.par.ioNeedsSlot := rfl
  cases hclass : classify s.par.ioNeedsSlot snap with
  | noise | noCycle =>
    simp only [decode, detect, hslot, hclass]
    rfl
  | unselected =>
    simp only [decode, detect, hslot, hclass]
    split
    next => rfl
    next => rfl
  | memRead =>
    simp only [decode, detect, hslot, hclass]
    exact exec_decodeMemRead_eq_memReadCycle s snap.a
  | memWrite =>
    simp only [decode, detect, hslot, hclass]
    exact exec_decodeMemWrite_eq_memWriteCycle s snap.a snap.d
  | ioRead =>
    simp only [decode, detect, hslot, hclass]
    exact exec_decodeIoRead_eq_ioReadCycle s snap.a
  | ioWrite =>
    simp only [decode, detect, hslot, hclass]
    exact exec_decodeIoWrite_eq_ioWriteCycle s snap.a snap.d

/-! ## A held strobe is served once -/

/-- R34, R211: `t` has the coordinator of `s`, or an operation in flight. -/
def CoordKept (s t : State) : Prop := t.co = s.co ∨ t.co.inFlight = true

/-- R214: an operation started leaves no result waiting, so what keeps the coordinator or starts one adds none. -/
theorem CoordKept.nothingWaits {s t : State} (h : CoordKept s t) (hs : NothingWaits s.co) : NothingWaits t.co := by
  rcases h with heq | hflight
  · exact heq ▸ hs
  · exact .inl hflight

/-- R182, R211: an `Issue` starts an operation or leaves the coordinator. -/
theorem issue_coordKept (kind : Dir) (lba : U32) (s : State) : CoordKept s (issue kind lba s) := by
  by_cases h : Accepts s lba
  · exact .inr (issue_accepted h kind ▸ rfl)
  · exact .inl (issue_rejected h kind ▸ rfl)

/-- R170, R174 to R181: the body of a command starts an operation or leaves the coordinator. -/
theorem commandBody_coordKept (d : Byte) (oldValid : Bool) (oldDir : Dir) (s : State) :
    CoordKept s (commandBody d oldValid oldDir s) := by
  unfold commandBody
  split_ifs
  · exact .inl rfl
  · exact .inl rfl
  · unfold cmdGetCap
    split
    · exact .inl rfl
    · exact .inl rfl
  · exact .inl rfl
  · unfold cmdReadNext
    split
    · exact issue_coordKept .read _ s
    · exact .inl rfl
  · exact .inl rfl
  · unfold cmdWriteNext
    split
    · exact .inl rfl
    · exact .inl rfl

/-- R170: the dispatch of a command byte starts an operation or leaves the coordinator. -/
theorem command_coordKept (d : Byte) (s : State) : CoordKept s (command d s) := by
  unfold command
  split_ifs
  · exact .inl rfl
  · exact .inl rfl
  · exact commandBody_coordKept d _ _ (setBridge (takeCommand d s.br) s)

/-- R186: the end of the address phase starts the read or leaves the coordinator. -/
theorem endAddr_coordKept (s : State) : CoordKept s (endAddr s) := by
  unfold endAddr
  split
  · exact issue_coordKept .read _ s
  · exact .inl rfl

/-- R184 to R189: a data-port write starts an operation or leaves the coordinator. -/
theorem dataWriteCycle_coordKept {d : Byte} {s t : State} (h : dataWriteCycle d s = .next t) : CoordKept s t := by
  cases hs : s.br.state with
  | awaitAddr =>
    simp only [dataWriteCycle_awaitAddr hs, addrByte] at h
    split_ifs at h
    · exact .inl (Host.Outcome.next.inj h ▸ rfl)
    · exact Host.Outcome.next.inj h ▸ endAddr_coordKept (setBridge (addrBridge d s.br) s)
  | awaitPayload =>
    simp only [dataWriteCycle_awaitPayload hs, payloadByte] at h
    split_ifs at h
    · exact .inl (Host.Outcome.next.inj h ▸ rfl)
    · exact Host.Outcome.next.inj h ▸ issue_coordKept .write _ (setBridge (payloadBridge d s.br) s)
  | idle | sending | readPending | writePending =>
    simp only [dataWriteCycle, hs] at h
    exact .inl (Host.Outcome.next.inj h ▸ rfl)

/-- R158, R195 to R197: an I/O read leaves the coordinator. -/
theorem ioReadCycle_coordKept {p : Port} {s t : State} (h : ioReadCycle p s = .next t) : CoordKept s t := by
  unfold ioReadCycle at h
  split_ifs at h with hb hc hd hs
  · exact .inl (Host.Outcome.next.inj h ▸ rfl)
  · exact .inl (Host.Outcome.next.inj h ▸ rfl)
  · obtain ⟨b, br, rfl, -⟩ := sendingCycle_session hs h
    exact .inl rfl
  · exact .inl (Host.Outcome.next.inj h ▸ rfl)
  · exact .inl (Host.Outcome.next.inj h ▸ rfl)

/-- R158, R170, R184: an I/O write starts an operation or leaves the coordinator. -/
theorem ioWriteCycle_coordKept {p : Port} {d : Byte} {s t : State} (h : ioWriteCycle p d s = .next t) :
    CoordKept s t := by
  unfold ioWriteCycle at h
  split_ifs at h
  · exact .inl (Host.Outcome.next.inj h ▸ rfl)
  · exact Host.Outcome.next.inj h ▸ command_coordKept d s
  · exact dataWriteCycle_coordKept h
  · exact .inl (Host.Outcome.next.inj h ▸ rfl)

/-- R150: whatever a sample's cycle serves, it starts an operation or leaves the coordinator. -/
theorem detect_coordKept {snap : Snapshot} {s t : State} (h : detect snap s = .next t) : CoordKept s t := by
  unfold detect at h
  split at h
  · exact .inl (Host.Outcome.next.inj h ▸ rfl)
  · exact .inl (Host.Outcome.next.inj h ▸ rfl)
  · exact .inl (Host.Outcome.next.inj h ▸ rfl)
  · rcases serveRead_frame h with rfl | rfl | ⟨b, rfl⟩ | ⟨b, rfl⟩
    all_goals exact .inl rfl
  · unfold memWriteCycle at h
    split at h
    · exact .inl (Host.Outcome.next.inj h ▸ rfl)
    · exact .inl (Host.Outcome.next.inj h ▸ rfl)
  · exact ioReadCycle_coordKept h
  · exact ioWriteCycle_coordKept h

/-- R150, R155, R156: the FSM's part of a BUS step starts an operation or leaves the coordinator. -/
theorem fsmStep_coordKept {snap : Snapshot} {s t : State} (h : fsmStep snap s = .next t) : CoordKept s t := by
  cases hf : s.fsm with
  | idle =>
    rw [fsmStep_idle hf, decodedRowsRefinePseudocode] at h
    exact detect_coordKept h
  | readHold =>
    rw [fsmStep_readHold hf] at h
    obtain rfl := Host.Outcome.next.inj h
    split <;> exact .inl rfl
  | writeHold =>
    rw [fsmStep_writeHold hf] at h
    obtain rfl := Host.Outcome.next.inj h
    split <;> exact .inl rfl

/-- R214: an absorption leaves no result waiting. -/
theorem nothingWaits_of_absorb {s t : State} (h : absorb s = .next t) : NothingWaits t.co := by
  rcases absorb_cases h with ⟨rfl, hnone⟩ | ⟨rfl, -⟩ | ⟨rfl, -⟩ | ⟨rfl, -⟩
  · exact hnone
  all_goals exact .inr rfl

/-- R150, R214: in configuration 10 the first part of a BUS step leaves no result waiting. -/
theorem nothingWaits_of_absorbFirst {s t : State} (h : absorbFirst s = .next t) (hb : s.cfg.bridgeEn = true) :
    NothingWaits t.co := by
  rw [absorbFirst, if_pos hb] at h
  exact nothingWaits_of_absorb h

/-- R150: a BUS step in SERVE leaves nothing for the next one to absorb. -/
theorem absorbFirst_after_busStep {snap : Snapshot} {s t : State} (hp : s.phase = .serve)
    (h : busStep snap s = .next t) : absorbFirst t = .next t := by
  refine absorbFirst_of_nothingWaits fun hb => ?_
  rw [(busStep_bootFrame h).cfg] at hb
  rcases busStep_cases h with ⟨-, hn⟩ | ⟨-, u, hu, ⟨-, rfl⟩ | ⟨-, hfsm⟩⟩
  · exact absurd hp hn
  · exact nothingWaits_of_absorbFirst hu hb
  · exact (fsmStep_coordKept hfsm).nothingWaits (nothingWaits_of_absorbFirst hu hb)

/-- R155, R156: the hold of a strobe that is active goes on. -/
theorem fsmStep_of_held {snap : Snapshot} {s : State}
    (h : (s.fsm = .readHold ∧ snap.rd = true) ∨ (s.fsm = .writeHold ∧ snap.wr = true)) :
    fsmStep snap s = .next s := by
  rcases h with ⟨hf, hrd⟩ | ⟨hf, hwr⟩
  · rw [fsmStep_readHold hf, if_pos hrd]
  · rw [fsmStep_writeHold hf, if_pos hwr]

/-- R157: a BUS step that leaves the machine in the hold of an active strobe is followed by one that does nothing. -/
theorem busStep_again {snap : Snapshot} {s t : State} (h : busStep snap s = .next t)
    (hold : (t.fsm = .readHold ∧ snap.rd = true) ∨ (t.fsm = .writeHold ∧ snap.wr = true)) :
    busStep snap t = .next t := by
  by_cases hp : t.phase = .serve
  · have hfirst : absorbFirst t = .next t := absorbFirst_after_busStep ((busStep_bootFrame h).phase ▸ hp) h
    cases hb : syncBlocked t with
    | true => exact busStep_of_blocked hp hfirst hb snap
    | false => rw [busStep_of_not_blocked hp hfirst hb, fsmStep_of_held hold]
  · exact busStep_of_not_serve hp snap

/-- R157: any number of BUS steps on a sample that one of them leaves the state on leave it. -/
theorem samples_of_busStep_same {snap : Snapshot} {t : State} (h : busStep snap t = .next t) (n : Nat) :
    samples n snap t = .next t := by
  induction n with
  | zero => rfl
  | succ n ih => simp only [samples, h, ih]

/-- Settles O13: the first step absorbed what there was and the hold waits for its strobe, so the next step, and with
it every further one, leaves the state. -/
theorem heldStrobeServedOnce : Obligations.HeldStrobeServedOnce := fun _ _ _ h hold n =>
  samples_of_busStep_same (busStep_again h hold) n

end Sys2Proof.Machine
end

section
/-! PROOFS of the family 44_storage_bridge.md: the bridge's commands, the status and data ports, the runs of the payload
phase, of a response and of the address phase, and what an operation in flight keeps from the buffer. -/

namespace Sys2Proof.Machine

/-! ## The commands -/

/-- Settles O38: the body of INIT, run from a clean phase. -/
theorem initResetsSession : Obligations.InitResetsSession := fun _ hp => commandCycle_runs hp 0x01 fun _ _ => cmdInit

/-- R175: the buffer a response is loaded into: its bytes first, then those of the buffer before. -/
theorem loadBytes_zero_bytes {l : List Byte} (h : l.length ≤ 512) (buf : Buffer) :
    (loadBytes buf 0 l).bytes = l ++ buf.bytes.drop l.length := by
  rw [loadBytes_bytes l buf 0 (by omega), List.take_zero, List.nil_append, Nat.zero_add]

/-- Settles O39: the body of GET_ID sends the identity, which fits the buffer. -/
theorem getIdSendsIdentity : Obligations.GetIdSendsIdentity := fun s hp _ hlen =>
  ⟨loadBytes s.br.buf 0 s.par.bridgeId, loadBytes_zero_bytes hlen _, commandCycle_runs hp 0x03 fun _ _ => cmdGetId⟩

/-- R177: with a ready device GET_CAP sends the capacity. -/
theorem cmdGetCap_ready {s : State} (h : s.dev.ready = true) : cmdGetCap s = sendOp (le32Bytes s.dev.capacity) s :=
  if_pos h

/-- R177, R182: with no ready device GET_CAP fails. -/
theorem cmdGetCap_absent {s : State} (h : s.dev.ready = false) : cmdGetCap s = failOp s := by
  rw [cmdGetCap, if_neg (by simp [h])]

/-- Settles O40: the body of GET_CAP, by the device. -/
theorem getCapSendsCapacity : Obligations.GetCapSendsCapacity := by
  intro s hp
  have hrun := commandCycle_runs hp 0x05 fun _ _ => cmdGetCap
  refine ⟨fun hready => ⟨loadBytes s.br.buf 0 (le32Bytes s.dev.capacity), ?_, ?_⟩, fun habsent => ?_⟩
  · exact loadBytes_zero_bytes (l := le32Bytes s.dev.capacity) (by simp [le32Bytes]) _
  · rw [cmdGetCap_ready (by exact hready)] at hrun
    exact hrun
  · rw [cmdGetCap_absent (by exact habsent)] at hrun
    exact hrun

/-- Settles O41: the body of each block command, run from a clean phase. -/
theorem blockCommandsOpenAddressPhase : Obligations.BlockCommandsOpenAddressPhase := fun _ hp =>
  ⟨commandCycle_runs hp 0x06 fun _ _ => cmdBlock .read, commandCycle_runs hp 0x08 fun _ _ => cmdBlock .write⟩

/-- R179: with a valid read cursor READ_NEXT issues the read of the next LBA. -/
theorem cmdReadNext_valid (s : State) : cmdReadNext true .read s = issue .read (s.br.lba + 1) s := rfl

/-- R179, R182: without a valid read cursor READ_NEXT fails. -/
theorem cmdReadNext_invalid {v : Bool} {dir : Dir} (h : ¬(v = true ∧ dir = .read)) (s : State) :
    cmdReadNext v dir s = failOp s := by
  rw [cmdReadNext, if_neg (by simpa using h)]

/-- R181, R182: without a valid write cursor WRITE_NEXT fails. -/
theorem cmdWriteNext_invalid {v : Bool} {dir : Dir} (h : ¬(v = true ∧ dir = .write)) (s : State) :
    cmdWriteNext v dir s = failOp s := by
  rw [cmdWriteNext, if_neg (by simpa using h)]

/-- Settles O42: the cursor and the start decide between the issue and the failure. -/
theorem readNextStartsNextBlock : Obligations.ReadNextStartsNextBlock := by
  intro s hp
  have hrun := commandCycle_runs hp 0x07 cmdReadNext
  refine ⟨fun hv hd hacc => ?_, fun hn => ?_⟩
  · rw [hv, hd, cmdReadNext_valid, setBridge_br, issue_setBridge_accepted (by exact hacc)] at hrun
    exact hrun
  · by_cases hcursor : s.br.seqValid = true ∧ s.br.seqDir = .read
    · have hrej : ¬Accepts s (s.br.lba + 1) := fun hacc => hn ⟨hcursor.1, hcursor.2, hacc⟩
      rw [hcursor.1, hcursor.2, cmdReadNext_valid, setBridge_br, issue_setBridge_rejected (by exact hrej)] at hrun
      exact hrun
    · rw [cmdReadNext_invalid hcursor] at hrun
      exact hrun

/-- Settles O43: the cursor decides between the payload phase and the failure. -/
theorem writeNextCollectsNextBlock : Obligations.WriteNextCollectsNextBlock := by
  intro s hp
  have hrun := commandCycle_runs hp 0x09 cmdWriteNext
  refine ⟨fun hv hd => ?_, fun hn => ?_⟩
  · rw [hv, hd] at hrun
    exact hrun
  · rw [cmdWriteNext_invalid hn] at hrun
    exact hrun

/-- R171: a command byte changes nothing while an operation is pending. -/
theorem command_pending {s : State} (h : pending s.br = true) (d : Byte) : command d s = s := if_pos h

/-- R73: 0x00, 0x02, 0x04 and the bytes from 0x0A on are no commands. -/
theorem recognised_eq_false {d : Byte} (h : d = 0x00 ∨ d = 0x02 ∨ d = 0x04 ∨ 0x0A ≤ d.toNat) :
    recognised d = false := by
  rcases h with rfl | rfl | rfl | hge
  · rfl
  · rfl
  · rfl
  · by_contra hrec
    simp only [recognised, Bool.not_eq_false, Bool.or_eq_true, decide_eq_true_eq, or_assoc] at hrec
    rcases hrec with rfl | rfl | rfl | rfl | rfl | rfl | rfl
    all_goals exact absurd hge (by decide)

/-- Settles O44: the dispatch of an ignored byte leaves the state, and its row only holds for WR. -/
theorem ignoredCommandsOnlyHold : Obligations.IgnoredCommandsOnlyHold := by
  refine ⟨fun s d hp => ?_, fun _ _ => rfl, fun s d hd => ?_⟩
  · rw [exec_decodeCommand_eq_command, command_pending hp]
    rfl
  · rw [exec_decodeCommand_eq_command, command_unrecognised (recognised_eq_false hd)]
    rfl

/-! ## The two ports -/

/-- Settles O45: the row drives the status. -/
theorem statusReadDrivesStatus : Obligations.StatusReadDrivesStatus := fun _ => rfl

/-- R196: the session after one byte of a response, field by field. -/
theorem sentBridge_eq (br : Bridge) : sentBridge br =
    { br with
      cursor := br.cursor + 1
      remaining := br.remaining - 1
      state := if br.remaining = 1 then .idle else br.state
      status := if br.remaining = 1 then statusReady else br.status } := by
  unfold sentBridge
  split
  next h => simp only [h, Nat.sub_self]
  next => rfl

/-- Settles O46, from the session one byte of the response leaves. -/
theorem dataReadConsumesOneByte : Obligations.DataReadConsumesOneByte := by
  intro s b hb hr
  refine (sendingCycle_eq hb hr).trans ?_
  rw [sentBridge_eq]
  rfl

/-- R186: the fourth byte of a read's address issues the read. -/
theorem endAddr_read {s : State} (h : s.br.dir = .read) : endAddr s = issue .read s.br.lba s := by
  simp only [endAddr, h]

/-- R186: the fourth byte of a write's address opens the payload phase. -/
theorem endAddr_write {s : State} (h : s.br.dir = .write) :
    endAddr s = setBridge { s.br with state := .awaitPayload, cursor := 0, status := statusReady } s := by
  simp only [endAddr, h]

/-- R185, R186: the fourth address byte leaves what the end of the address phase leaves. -/
theorem exec_iwData_fourth {s : State} (hs : s.br.state = .awaitAddr) (hk : s.br.addrCount = 3) (d : Byte) :
    exec (.iwData d) s = .next (holdWrite (endAddr (setBridge
      { s.br with lba := s.br.lba ||| (d.setWidth 32 <<< (8 * s.br.addrCount)), addrCount := 4 } s))) := by
  rw [exec_iwData_awaitAddr hs, addrByte_last hk, addrBridge, hk]

/-- Settles O47: a byte before the fourth only counts; after the fourth the direction and the start decide. -/
theorem addressBytesAssembleLba : Obligations.AddressBytesAssembleLba := by
  rintro s d lba hs rfl
  refine ⟨fun hk => ?_, fun hk hd hacc => ?_, fun hk hd hrej => ?_, fun hk hd => ?_⟩
  · exact (exec_iwData_awaitAddr hs d).trans (addrByte_more hk d)
  · rw [exec_iwData_fourth hs hk, endAddr_read (by exact hd), setBridge_br, issue_setBridge_accepted (by exact hacc)]
    rfl
  · rw [exec_iwData_fourth hs hk, endAddr_read (by exact hd), setBridge_br, issue_setBridge_rejected (by exact hrej)]
    rfl
  · rw [exec_iwData_fourth hs hk, endAddr_write (by exact hd)]
    rfl

/-- A data-port write in AWAIT_PAYLOAD is a payload byte (R184, R187). -/
theorem exec_iwData_awaitPayload {s : State} (h : s.br.state = .awaitPayload) (d : Byte) :
    exec (.iwData d) s = payloadByte d s := dataWriteCycle_awaitPayload h d

/-- R187: a payload byte lands in the buffer at the cursor. -/
theorem payloadBridge_eq {br : Bridge} {d : Byte} {buf : Buffer} (h : buf.bytes = br.buf.bytes.set br.cursor d) :
    payloadBridge d br = { br with buf := buf, cursor := br.cursor + 1 } := by
  rw [payloadBridge, Buffer.eq_of_bytes (a := br.buf.put br.cursor d) (b := buf) h.symm]

/-- Settles O48: a byte before the last only counts; after the last the start decides. -/
theorem payloadBytesFillBuffer : Obligations.PayloadBytesFillBuffer := by
  intro s d buf hs hbuf
  rw [exec_iwData_awaitPayload hs]
  refine ⟨fun hk => ?_, fun hk hacc => ?_, fun hk hrej => ?_⟩
  · rw [payloadByte_more hk, payloadBridge_eq hbuf]
    rfl
  · rw [payloadByte_last hk, payloadBridge_eq hbuf, issue_setBridge_accepted hacc, hk]
    rfl
  · rw [payloadByte_last hk, payloadBridge_eq hbuf, issue_setBridge_rejected hrej]
    rfl

/-- R189: outside the two collecting states a data-port write only holds for WR. -/
theorem dataWriteCycle_ignored {s : State} (ha : s.br.state ≠ .awaitAddr) (hp : s.br.state ≠ .awaitPayload) (d : Byte) :
    dataWriteCycle d s = .next (holdWrite s) := by
  cases hs : s.br.state with
  | awaitAddr => exact absurd hs ha
  | awaitPayload => exact absurd hs hp
  | idle | sending | readPending | writePending => simp only [dataWriteCycle, hs]

/-- R70, R197: in configuration 10 a read of the data port outside SENDING is the row that drives the sentinel. -/
theorem decode_dataRead_other {s : State} (hb : s.cfg.bridgeEn = true) (hne : s.par.dataPort ≠ s.par.ctrlPort)
    (hs : s.br.state ≠ .sending) : decode (ctxOf s) (portRead (ctxOf s) s.par.dataPort) = .irDataOther := by
  rw [decode_portRead]
  simp [decodeIoRead, ctxOf, hb, hne, hs]

/-- Settles O49: the row of the sentinel, its decoding, and the data-port writes that are ignored. -/
theorem dataPortOutOfPhase : Obligations.DataPortOutOfPhase :=
  ⟨fun _ => rfl, fun _ hb hne hs => decode_dataRead_other hb hne hs, fun _ d ha hp => dataWriteCycle_ignored ha hp d⟩

/-! ## The payload phase -/

/-- R187: the bytes collected once one more is put at the end of the `k` collected before. -/
theorem Buffer.take_put (buf : Buffer) {k : Nat} (h : k < 512) (d : Byte) :
    (buf.put k d).bytes.take (k + 1) = buf.bytes.take k ++ [d] := by
  have hlen : k < (buf.bytes.set k d).length := by rw [List.length_set, buf.size]; exact h
  rw [Buffer.put_bytes, List.take_succ_eq_append_getElem hlen, List.getElem_set_self, List.take_set_of_le (Nat.le_refl k)]

/-- R188: the last payload byte of a block whose start is accepted completes the buffer and starts the write. -/
theorem dataWrites_last_payload {s : State} (hs : s.br.state = .awaitPayload) (hk : s.br.cursor = 511)
    (hacc : Accepts s s.br.lba) (d : Byte) :
    ∃ t : State, dataWrites [d] s = .next t ∧ t.br.buf.bytes = s.br.buf.bytes.take 511 ++ [d] ∧
      t.br.state = .writePending ∧ t.br.status = 0x01 ∧ t.co = ⟨true, .none, .write, s.br.lba⟩ := by
  obtain ⟨-, hlast, -⟩ := payloadBytesFillBuffer s d (s.br.buf.put 511 d) hs (by rw [hk]; rfl)
  refine ⟨_, dataWrites_cons (hlast hk hacc), ?_, rfl, rfl, rfl⟩
  rw [← Buffer.take_put s.br.buf (by decide) d]
  exact (List.take_of_length_le (Buffer.size _).le).symm

/-- R187, R188: the payload bytes still missing, written one after the other, complete the buffer behind those
collected before and start the write. -/
theorem dataWrites_payload (ds : List Byte) (d : Byte) (s : State) (hs : s.br.state = .awaitPayload)
    (hk : s.br.cursor + ds.length = 511) (hacc : Accepts s s.br.lba) :
    ∃ t : State, dataWrites (d :: ds) s = .next t ∧ t.br.buf.bytes = s.br.buf.bytes.take s.br.cursor ++ d :: ds ∧
      t.br.state = .writePending ∧ t.br.status = 0x01 ∧ t.co = ⟨true, .none, .write, s.br.lba⟩ := by
  induction ds generalizing d s with
  | nil =>
    have hcursor : s.br.cursor = 511 := hk
    rw [hcursor]
    exact dataWrites_last_payload hs hcursor hacc d
  | cons e es ih =>
    rw [List.length_cons] at hk
    obtain ⟨hmore, -, -⟩ := payloadBytesFillBuffer s d (s.br.buf.put s.br.cursor d) hs rfl
    obtain ⟨t, hrun, hbytes, hrest⟩ := ih e (release (held { s.br with
      buf := s.br.buf.put s.br.cursor d, cursor := s.br.cursor + 1 } s.co s)) hs
      (show s.br.cursor + 1 + es.length = 511 by omega) hacc
    refine ⟨t, (dataWrites_cons (hmore (by omega))).trans hrun, hbytes.trans ?_, hrest⟩
    show (s.br.buf.put s.br.cursor d).bytes.take (s.br.cursor + 1) ++ e :: es = _
    rw [Buffer.take_put _ (by omega), List.append_assoc, List.singleton_append]

/-- Settles O51: at the start of the payload phase all 512 bytes are missing. -/
theorem payloadPhaseStartsWrite : Obligations.PayloadPhaseStartsWrite := by
  rintro s (_ | ⟨d, ds⟩) hs hk hlen hacc
  · cases hlen
  · rw [List.length_cons] at hlen
    have hrun := dataWrites_payload ds d s hs (by omega) hacc
    rw [hk] at hrun
    exact hrun

/-! ## The response -/

/-- R85, R196: a run of data-port reads whose first answers a next state goes on from that state, released. -/
theorem dataReads_succ {n : Nat} {s u t : State} {bytes : List Byte} (h : exec .irDataSending s = .next u)
    (hrest : dataReads n (release u) = some (bytes, t)) : dataReads (n + 1) s = some (u.dout :: bytes, t) := by
  simp only [dataReads, h, hrest]

/-- Settles O52, by induction on the number of reads: each read drives the byte at the cursor and moves the cursor on. -/
theorem dataReadsReturnResponse : Obligations.DataReadsReturnResponse := by
  intro s n
  induction n generalizing s with
  | zero =>
    intro hs hr _ _
    exact ⟨s, rfl, rfl, rfl, fun _ => ⟨hs, rfl⟩, fun h => by omega⟩
  | succ n ih =>
    intro hs hr hfit hn
    have hcursor : s.br.cursor < s.br.buf.bytes.length := by rw [s.br.buf.size]; omega
    have hread := dataReadConsumesOneByte s _ (List.getElem?_eq_getElem hcursor) hr
    rw [List.drop_eq_getElem_cons hcursor, List.take_succ_cons]
    by_cases hone : s.br.remaining = 1
    · obtain rfl : n = 0 := by omega
      simp only [hone, if_true] at hread
      exact ⟨_, dataReads_succ hread rfl, by simp [hone], rfl, fun h => by omega, fun _ => ⟨rfl, rfl⟩⟩
    · simp only [if_neg hone] at hread
      obtain ⟨t, hrun, hremaining, hbuf, hmore, hall⟩ := ih (release (driven _ { s with
        br := { s.br with cursor := s.br.cursor + 1, remaining := s.br.remaining - 1 } })) hs
        (show 1 ≤ s.br.remaining - 1 by omega) (show s.br.cursor + 1 + (s.br.remaining - 1) ≤ 512 by omega)
        (show n ≤ s.br.remaining - 1 by omega)
      refine ⟨t, dataReads_succ hread hrun, hremaining.trans ?_, hbuf, fun h => hmore ?_, fun h => hall ?_⟩
      · show s.br.remaining - 1 - n = s.br.remaining - (n + 1)
        omega
      · show n < s.br.remaining - 1
        omega
      · show n = s.br.remaining - 1
        omega

/-! ## The address phase of a read -/

/-- R11, R185: the LBA collected from four address bytes is, bit by bit, their little-endian value. -/
theorem collected_eq_le32 (b0 b1 b2 b3 : Byte) :
    (0 : U32) ||| b0.setWidth 32 <<< (8 * 0) ||| b1.setWidth 32 <<< (8 * 1) ||| b2.setWidth 32 <<< (8 * 2) |||
      b3.setWidth 32 <<< (8 * 3) = le32 b0 b1 b2 b3 := by
  ext i hi
  grind [le32]

/-- R185: `s` with `k` address bytes collected into `lba`, the strobe of the last one released. -/
def collecting (k : Nat) (lba : U32) (s : State) : State :=
  release (held { s.br with lba := lba, addrCount := k } s.co s)

/-- R185: an address byte before the fourth is collected into the LBA, and the run goes on. -/
theorem dataWrites_collecting {s : State} (hs : s.br.state = .awaitAddr) {k : Nat} (hk : k < 3) (lba : U32) (d : Byte)
    (ds : List Byte) : dataWrites (d :: ds) (collecting k lba s) =
      dataWrites ds (collecting (k + 1) (lba ||| d.setWidth 32 <<< (8 * k)) s) := by
  obtain ⟨hmore, -⟩ := addressBytesAssembleLba (collecting k lba s) d _ hs rfl
  exact dataWrites_cons (hmore hk)

/-- R54, R185, R186: four address bytes of an LBA that a start accepts, written from the start of the address phase
of a read, start the read of that LBA. -/
theorem dataWrites_address_read {s : State} (hs : s.br.state = .awaitAddr) (hd : s.br.dir = .read)
    {b0 b1 b2 b3 : Byte} (hacc : Accepts s (le32 b0 b1 b2 b3)) :
    ∃ t : State, dataWrites [b0, b1, b2, b3] (collecting 0 0 s) = .next t ∧
      t.co = ⟨true, .none, .read, le32 b0 b1 b2 b3⟩ ∧ t.br.state = .readPending ∧ t.br.status = 0x01 ∧
      t.br.lba = le32 b0 b1 b2 b3 := by
  rw [dataWrites_collecting hs (by decide), dataWrites_collecting hs (by decide), dataWrites_collecting hs (by decide)]
  have hlba := (collected_eq_le32 b0 b1 b2 b3).symm
  obtain ⟨-, hlast, -⟩ := addressBytesAssembleLba (collecting 3 _ s) b3 _ hs hlba
  exact ⟨_, dataWrites_cons (hlast rfl hd hacc), rfl, rfl, rfl, rfl⟩

/-- Settles O53: both runs start the read of the same LBA, by what READ_NEXT, READ_BLOCK and the address phase do. -/
theorem readNextMatchesExplicitRead : Obligations.ReadNextMatchesExplicitRead := by
  intro s b0 b1 b2 b3 hp hv hd hlba hacc
  have hnext := (readNextStartsNextBlock s hp).1 hv hd hacc
  obtain ⟨hblock, -⟩ := blockCommandsOpenAddressPhase s hp
  rw [← hlba] at hnext hacc
  obtain ⟨v, hrun, hco, hstate, hstatus, hread⟩ := dataWrites_address_read (s := held { s.br with
      seqValid := false, lastCmd := 0x06, cursor := 0, remaining := 0
      state := .awaitAddr, dir := .read, status := 0x00 } s.co s) rfl rfl hacc
  exact ⟨_, _, v, hnext, hblock, hrun, hco.symm, hstate.symm, hstatus.symm, hread.symm⟩

/-! ## The buffer while an operation is in flight -/

/-- R30: the machine with another buffer. -/
def withBuffer (buf : Buffer) (s : State) : State := setBridge { s.br with buf := buf } s

/-- R60, R190: from `s` the cycle `f` leaves the buffer and does the same whatever the buffer holds. -/
def BufferBlind (f : State → Host.Outcome State Fault Refusal) (s : State) : Prop :=
  ∀ t : State, f s = .next t →
    t.br.buf = s.br.buf ∧ ∀ buf : Buffer, f (withBuffer buf s) = .next (withBuffer buf t)

/-- A cycle whose next state is known, for every buffer, is blind to the buffer when it keeps it. -/
theorem bufferBlind_of_next {f : State → Host.Outcome State Fault Refusal} {s t : State} (h : f s = .next t)
    (hbuf : t.br.buf = s.br.buf) (hother : ∀ buf : Buffer, f (withBuffer buf s) = .next (withBuffer buf t)) :
    BufferBlind f s := fun _ h' => Host.Outcome.next.inj (h.symm.trans h') ▸ ⟨hbuf, hother⟩

/-- R115: a draw neither reads nor changes the buffer. -/
theorem drawCycle_withBuffer (buf : Buffer) (s : State) : drawCycle (withBuffer buf s) = withBuffer buf (drawCycle s) := by
  simp only [drawCycle, show (withBuffer buf s).draws = s.draws from rfl]
  split
  · rfl
  · rfl

/-- R143, R152: a served read drives a byte of the store, of the cache, or of a draw. -/
theorem serveRead_bufferBlind (r : ReadResult) (s : State) : BufferBlind (serveRead r) s := by
  cases r with
  | none => exact bufferBlind_of_next rfl rfl fun _ => rfl
  | fill => exact bufferBlind_of_next rfl rfl fun _ => rfl
  | byte off =>
    intro t h
    simp only [serveRead] at h
    split at h
    next b hb =>
      obtain rfl := Host.Outcome.next.inj h
      have hother (buf : Buffer) : resolve (withBuffer buf s) off = some b := hb
      exact ⟨rfl, fun buf => by simp only [serveRead, hother]; rfl⟩
    next => cases h
  | unspec =>
    have hbuf : (drawCycle s).br.buf = s.br.buf := by
      rcases drawCycle_cases s with hd | ⟨b, hd⟩
      · rw [hd, nextDraw_br]
      · rw [hd, drive_br, nextDraw_br]
    exact bufferBlind_of_next rfl hbuf fun buf => congrArg _ (drawCycle_withBuffer buf s)

/-- R110, R152: the mapper reads no part of the session. -/
theorem memReadCycle_bufferBlind (a : Addr) (s : State) : BufferBlind (memReadCycle a) s :=
  serveRead_bufferBlind (mapRead s a) s

/-- R116, R154: a memory write sets a bank register or nothing. -/
theorem memWriteCycle_bufferBlind (a : Addr) (d : Byte) (s : State) : BufferBlind (memWriteCycle a d) s := by
  have hother (buf : Buffer) : mapWrite (withBuffer buf s) a d = mapWrite s a d := rfl
  cases hw : mapWrite s a d with
  | none =>
    exact bufferBlind_of_next (t := s) (by simp only [memWriteCycle, hw]) rfl fun buf => by
      simp only [memWriteCycle, hother, hw]
  | some rv =>
    exact bufferBlind_of_next (t := holdWrite (setBank rv.1 rv.2 s)) (by simp only [memWriteCycle, hw]) rfl fun buf => by
      simp only [memWriteCycle, hother, hw]
      rfl

/-- R171: the two states in which an operation is pending. -/
theorem state_of_pending {br : Bridge} (h : pending br = true) : br.state = .readPending ∨ br.state = .writePending := by
  simpa [pending] using h

/-- R197: outside SENDING no port read takes a byte of the buffer. -/
theorem ioReadCycle_bufferBlind {s : State} (hs : s.br.state ≠ .sending) (p : Port) :
    BufferBlind (ioReadCycle p) s := by
  by_cases hb : (!s.cfg.bridgeEn) = true
  · exact bufferBlind_of_next (if_pos hb) rfl fun _ => if_pos hb
  by_cases hc : p = s.par.ctrlPort
  · exact bufferBlind_of_next ((if_neg hb).trans (if_pos hc)) rfl fun _ => (if_neg hb).trans (if_pos hc)
  by_cases hd : p = s.par.dataPort
  · exact bufferBlind_of_next ((if_neg hb).trans ((if_neg hc).trans ((if_pos hd).trans (if_neg hs)))) rfl
      fun _ => (if_neg hb).trans ((if_neg hc).trans ((if_pos hd).trans (if_neg hs)))
  · exact bufferBlind_of_next ((if_neg hb).trans ((if_neg hc).trans (if_neg hd))) rfl
      fun _ => (if_neg hb).trans ((if_neg hc).trans (if_neg hd))

/-- R158, R171, R189: while an operation is pending a write of a bridge port only holds for WR. -/
theorem ioWriteCycle_pending {s : State} (hp : pending s.br = true) (p : Port) (d : Byte) : ioWriteCycle p d s =
    .next (if s.cfg.bridgeEn = true ∧ (p = s.par.ctrlPort ∨ p = s.par.dataPort) then holdWrite s else s) := by
  have hdata : dataWriteCycle d s = .next (holdWrite s) := by
    rcases state_of_pending hp with hs | hs
    · exact dataWriteCycle_ignored (by simp [hs]) (by simp [hs]) d
    · exact dataWriteCycle_ignored (by simp [hs]) (by simp [hs]) d
  rw [ioWriteCycle, command_pending hp, hdata]
  cases s.cfg.bridgeEn with
  | false => simp
  | true =>
    by_cases hc : p = s.par.ctrlPort
    · simp [hc]
    · by_cases hd : p = s.par.dataPort
      · simp [hd]
      · simp [hc, hd]

/-- R171, R189: while an operation is pending no port write reaches the buffer. -/
theorem ioWriteCycle_bufferBlind {s : State} (hp : pending s.br = true) (p : Port) (d : Byte) :
    BufferBlind (ioWriteCycle p d) s := by
  by_cases hport : s.cfg.bridgeEn = true ∧ (p = s.par.ctrlPort ∨ p = s.par.dataPort)
  · exact bufferBlind_of_next ((ioWriteCycle_pending hp p d).trans (congrArg _ (if_pos hport))) rfl
      fun buf => (ioWriteCycle_pending (s := withBuffer buf s) hp p d).trans (congrArg _ (if_pos hport))
  · exact bufferBlind_of_next ((ioWriteCycle_pending hp p d).trans (congrArg _ (if_neg hport))) rfl
      fun buf => (ioWriteCycle_pending (s := withBuffer buf s) hp p d).trans (congrArg _ (if_neg hport))

/-- R150: while an operation is pending the cycle of every sample is blind to the buffer. -/
theorem detect_bufferBlind {s : State} (hp : pending s.br = true) (snap : Snapshot) : BufferBlind (detect snap) s := by
  intro t h
  have hother (buf : Buffer) : (withBuffer buf s).par.ioNeedsSlot = s.par.ioNeedsSlot := rfl
  have hs : s.br.state ≠ .sending := by rcases state_of_pending hp with hs | hs <;> simp [hs]
  cases hclass : classify s.par.ioNeedsSlot snap with
  | noise | noCycle | unselected =>
    simp only [detect, hother, hclass] at h ⊢
    exact Host.Outcome.next.inj h ▸ ⟨rfl, fun _ => rfl⟩
  | memRead =>
    simp only [detect, hother, hclass] at h ⊢
    exact memReadCycle_bufferBlind snap.a s t h
  | memWrite =>
    simp only [detect, hother, hclass] at h ⊢
    exact memWriteCycle_bufferBlind snap.a snap.d s t h
  | ioRead =>
    simp only [detect, hother, hclass] at h ⊢
    exact ioReadCycle_bufferBlind hs (portOf snap.a) t h
  | ioWrite =>
    simp only [detect, hother, hclass] at h ⊢
    exact ioWriteCycle_bufferBlind hp (portOf snap.a) snap.d t h

/-- R150, R155, R156: the FSM's part of a BUS step waits in a hold or runs a cycle. -/
theorem fsmStep_bufferBlind {s : State} (hp : pending s.br = true) (snap : Snapshot) :
    BufferBlind (fsmStep snap) s := by
  cases hf : s.fsm with
  | idle =>
    intro t h
    rw [fsmStep_idle hf, decodedRowsRefinePseudocode] at h
    obtain ⟨hbuf, hother⟩ := detect_bufferBlind hp snap t h
    refine ⟨hbuf, fun buf => ?_⟩
    rw [fsmStep_idle (s := withBuffer buf s) hf, decodedRowsRefinePseudocode, hother]
  | readHold =>
    refine bufferBlind_of_next (fsmStep_readHold hf snap) (by split <;> rfl) fun buf => ?_
    rw [fsmStep_readHold (s := withBuffer buf s) hf]
    split <;> rfl
  | writeHold =>
    refine bufferBlind_of_next (fsmStep_writeHold hf snap) (by split <;> rfl) fun buf => ?_
    rw [fsmStep_writeHold (s := withBuffer buf s) hf]
    split <;> rfl

/-- R150, R190: with an operation in flight and pending, a BUS step absorbs nothing and is blind to the buffer. -/
theorem busStep_bufferBlind {s : State} (hf : s.co.inFlight = true) (hp : pending s.br = true) (snap : Snapshot) :
    BufferBlind (busStep snap) s := by
  by_cases hserve : s.phase = .serve
  · have hfirst {u : State} (hu : u.co.inFlight = true) : absorbFirst u = .next u :=
      absorbFirst_of_nothingWaits fun _ => .inl hu
    cases hb : syncBlocked s with
    | true =>
      exact bufferBlind_of_next (busStep_of_blocked hserve (hfirst hf) hb snap) rfl fun buf =>
        busStep_of_blocked (s := withBuffer buf s) hserve (hfirst hf) hb snap
    | false =>
      intro t h
      rw [busStep_of_not_blocked hserve (hfirst hf) hb] at h
      obtain ⟨hbuf, hother⟩ := fsmStep_bufferBlind hp snap t h
      exact ⟨hbuf, fun buf =>
        (busStep_of_not_blocked (s := withBuffer buf s) hserve (hfirst hf) hb snap).trans (hother buf)⟩
  · exact bufferBlind_of_next (busStep_of_not_serve hserve snap) rfl fun buf =>
      busStep_of_not_serve (s := withBuffer buf s) hserve snap

/-- Settles O59: by the invariant the session of an operation in flight is pending. -/
theorem busLeavesBufferInFlight : Obligations.BusLeavesBufferInFlight := by
  intro s t snap buf hinv hflight h
  have hpending : pending s.br = true := hinv.pendingIff.2 (.inl hflight)
  obtain ⟨hbuf, hother⟩ := busStep_bufferBlind hflight hpending snap t h
  exact ⟨hbuf, hother buf⟩

end Sys2Proof.Machine
end

section
/-! PROOFS of the family 45_block_io.md: the coordinator's start, its completion and the absorption of it, and what a
mount and a removal leave in configuration 10. -/

namespace Sys2Proof.Machine

/-! ## The absorption of a completion -/

/-- R214: a failed operation fails the session. -/
theorem absorb_failed {s : State} (hf : s.co.inFlight = false) (hr : s.co.result = .failed) :
    absorb s = .next (failOp (clearResult s)) := by
  rw [absorb, if_neg (by simp [hf]), hr]

/-- R214: a block read that is ready opens the response. -/
theorem absorb_readPending {s : State} (hf : s.co.inFlight = false) (hr : s.co.result = .ready)
    (hs : s.br.state = .readPending) : absorb s = .next (setBridge (readReady s.br) (clearResult s)) := by
  rw [absorb, if_neg (by simp [hf]), hr, hs]

/-- R214: a block write that is ready ends the transfer. -/
theorem absorb_writePending {s : State} (hf : s.co.inFlight = false) (hr : s.co.result = .ready)
    (hs : s.br.state = .writePending) : absorb s = .next (setBridge (writeReady s.br) (clearResult s)) := by
  rw [absorb, if_neg (by simp [hf]), hr, hs]

/-- R150: in SERVE and configuration 10 a BUS step absorbs, and goes on with the FSM unless a synchronous operation
runs. -/
theorem busStep_of_absorb {s t : State} (hp : s.phase = .serve) (hb : s.cfg.bridgeEn = true)
    (ht : absorb s = .next t) (snap : Snapshot) :
    busStep snap s = if syncBlocked t then .next t else fsmStep snap t := by
  have hfirst : absorbFirst s = .next t := (if_pos hb).trans ht
  cases hblocked : syncBlocked t with
  | true => exact busStep_of_blocked hp hfirst hblocked snap
  | false => exact busStep_of_not_blocked hp hfirst hblocked snap

/-- Settles O9, one lemma for each case of the absorption and one for its place in the step. -/
theorem completionAbsorbedFirst : Obligations.CompletionAbsorbedFirst :=
  ⟨fun _ h => absorb_of_nothingWaits h, fun _ => absorb_readPending, fun _ => absorb_writePending,
    fun _ => absorb_failed, fun _ _ snap hp hb ht => busStep_of_absorb hp hb ht snap⟩

/-! ## The coordinator's start and completion -/

/-- Settles O54: the conditions of a start are those of `Accepts`. -/
theorem startAcceptsInRange : Obligations.StartAcceptsInRange := fun _ kind _ =>
  ⟨fun h => start_accepted h kind, fun h => start_rejected h kind⟩

/-- Settles O55: the buffer is filled exactly by a read that succeeds. -/
theorem completeRecordsOutcome : Obligations.CompleteRecordsOutcome := by
  intro s ok data hf
  rw [runEvent, completeEvent_inFlight hf]
  have hfill : (ok && s.co.op == .read) = true ↔ s.co.op = .read ∧ ok = true := by simp [and_comm]
  by_cases hread : s.co.op = .read ∧ ok = true
  · rw [if_pos hread, if_pos (hfill.2 hread)]
    rfl
  · rw [if_neg hread, if_neg (mt hfill.1 hread)]
    rfl

/-! ## Mount and removal -/

/-- R234: in configuration 10 a mount or a removal resets the session. -/
theorem sessionLive_of_bridgeEn {s : State} (h : s.cfg.bridgeEn = true) : sessionLive s = true := by
  rw [sessionLive, h, Bool.true_or]

/-- R217: a mount where the session is live drops it with status Ready. -/
theorem mountEvent_live {s : State} (hd : s.dev.ready = false) (hl : sessionLive s = true) (c : U32) :
    mountEvent c s = dropSession statusReady (setDevice ⟨true, c⟩ s) := by
  rw [mountEvent, if_neg (by simp [hd])]
  exact if_pos hl

/-- R218: a removal where the session is live drops it with status Error. -/
theorem removeEvent_live {s : State} (hd : s.dev.ready = true) (hl : sessionLive s = true) :
    removeEvent s = dropSession statusError (setDevice { s.dev with ready := false } s) := by
  rw [removeEvent, if_pos hd]
  exact if_pos hl

/-- Settles O56: the session is live in configuration 10. -/
theorem mountStartsClean : Obligations.MountStartsClean := fun _ c hb hd =>
  congrArg Host.Outcome.next (mountEvent_live hd (sessionLive_of_bridgeEn hb) c)

/-- Settles O57: the session is live in configuration 10. -/
theorem removeDropsSession : Obligations.RemoveDropsSession := fun _ hb hd =>
  congrArg Host.Outcome.next (removeEvent_live hd (sessionLive_of_bridgeEn hb))

end Sys2Proof.Machine
end

section
/-! PROOFS of the family 60_exceptions.md: the event a step takes of those offered at one instant, and the device's
events where the session is not live or the event is not enabled. -/

namespace Sys2Proof.Machine

/-! ## Simultaneous events -/

/-- Log 3: an instant stays in the queue exactly as long as it has an event left. -/
theorem remainingInputs_eq_ite (rest : List Event) (later : List Instant) :
    remainingInputs rest later = if rest = [] then later else rest :: later := by
  cases rest with
  | nil => rfl
  | cons e es => exact (if_neg (List.cons_ne_nil e es)).symm

/-- R59, R235: with events offered, a step runs the one picked of the first instant and leaves the others offered. -/
theorem step_offered {s : State} {e : Event} {es : List Event} {later : List Instant}
    (h : s.inputs = (e :: es) :: later) :
    step s = runEvent (pickEvent e es).1 (setInputs (remainingInputs (pickEvent e es).2 later) s) := by
  simp only [step, takeEvent, h]

/-- Settles O15: the picked event splits the offers as `pickEvent_split` says. -/
theorem eventsTakenByRank : Obligations.EventsTakenByRank := by
  refine ⟨fun c ok data pins => by simp [eventRank], fun s e es later h => ?_⟩
  obtain ⟨before, after, hoffered, hrest, hbefore, hafter⟩ := pickEvent_split e es
  refine ⟨_, before, after, hoffered, hbefore, hafter, ?_⟩
  rw [step_offered h, hrest, remainingInputs_eq_ite]
  rfl

/-! ## Device events -/

/-- R234: in SERVE without the bridge there is no session for a mount or a removal to reset. -/
theorem not_sessionLive_of_serve {s : State} (hp : s.phase = .serve) (hb : s.cfg.bridgeEn = false) :
    ¬sessionLive s = true := by simp [sessionLive, hp, hb]

/-- R234: a mount where the session is not live changes only the device. -/
theorem mountEvent_not_live {s : State} (hd : s.dev.ready = false) (hl : ¬sessionLive s = true) (c : U32) :
    mountEvent c s = setDevice ⟨true, c⟩ s := by
  rw [mountEvent, if_neg (by simp [hd])]
  exact if_neg hl

/-- R234: a removal where the session is not live changes only the device. -/
theorem removeEvent_not_live {s : State} (hd : s.dev.ready = true) (hl : ¬sessionLive s = true) :
    removeEvent s = setDevice { s.dev with ready := false } s := by
  rw [removeEvent, if_pos hd]
  exact if_neg hl

/-- Log 3: a mount is not enabled while a device is ready. -/
theorem mountEvent_ready {s : State} (hd : s.dev.ready = true) (c : U32) : mountEvent c s = s := if_pos hd

/-- Log 3: a removal is not enabled while no device is ready. -/
theorem removeEvent_absent {s : State} (hd : s.dev.ready = false) : removeEvent s = s := if_neg (by simp [hd])

/-- Settles O58, one lemma for each event and each reason it leaves the core alone. -/
theorem otherDeviceEventsLeaveCore : Obligations.OtherDeviceEventsLeaveCore := fun _ c ok data =>
  ⟨fun hp hb hd => congrArg Host.Outcome.next (mountEvent_not_live hd (not_sessionLive_of_serve hp hb) c),
    fun hp hb hd => congrArg Host.Outcome.next (removeEvent_not_live hd (not_sessionLive_of_serve hp hb)),
    fun hd => congrArg Host.Outcome.next (mountEvent_ready hd c),
    fun hd => congrArg Host.Outcome.next (removeEvent_absent hd),
    fun hf => congrArg Host.Outcome.next (completeEvent_idle hf ok data)⟩

end Sys2Proof.Machine
end

section
/-! PROOFS of the family 70_reset_and_hazards.md: what reset sets, the three results of reading a header record, and
the fatal configuration errors of the boot sequence. -/

namespace Sys2Proof.Machine

/-! ## The outputs outside their phases -/

/-- R20: D_OE is inactive outside SERVE. -/
theorem dOE_of_not_serve {s : State} (h : s.phase ≠ .serve) : dOE s = false :=
  Bool.eq_false_of_not_eq_true fun hd => h ((dOE_iff s).1 hd).1

/-- R20: WAIT is inactive outside BOOT. -/
theorem waitAct_of_not_boot {s : State} (h : s.phase ≠ .boot) : waitAct s = false :=
  Bool.eq_false_of_not_eq_true fun hw => h ((waitAct_iff s).1 hw)

/-! ## Reset -/

/-- Settles O17: the next state is `resetState` around the state's parameters and device; its outputs are those of BOOT. -/
theorem resetSetsEveryElement : Obligations.ResetSetsEveryElement := fun s =>
  ⟨resetEvent s, rfl, rfl, rfl, dOE_of_not_serve nofun, (waitAct_iff _).2 rfl,
    rfl, rfl, rfl, rfl, rfl, rfl, rfl, rfl, rfl, rfl, rfl, rfl, rfl, rfl, rfl, rfl⟩

/-! ## The header records -/

/-- R79: `allErased` says of each byte of the range that it is 0xFF. -/
theorem allErased_iff {p : Params} {a n : Nat} :
    allErased p a n = true ↔ ∀ k < n, Memory.read p.store (a + k) = 0xFF := by
  induction n with
  | zero => exact iff_of_true rfl fun k hk => absurd hk (Nat.not_lt_zero k)
  | succ n ih => rw [allErased, Bool.and_eq_true, beq_iff_eq, ih, Nat.forall_lt_succ_right, and_comm]

/-- R253: a record that does not fit in the store is missing. -/
theorem readRecord_missing {p : Params} {i : Nat}
    (h : p.storeLen < p.headerBase + i * recLen p + recLen p) : readRecord p i = .missing := if_pos h

/-- R253: a record that fits is the terminator or has its three fields, as its bytes are all erased or not. -/
theorem readRecord_of_fits {p : Params} {i a : Nat} (ha : a = p.headerBase + i * recLen p)
    (h : a + recLen p ≤ p.storeLen) :
    readRecord p i = if allErased p a (recLen p) then .terminator
      else .valid (Memory.read p.store (a + p.nameLen)) (storeLe32 p (a + p.nameLen + 1))
        (storeLe32 p (a + p.nameLen + 5)) := by
  subst ha
  exact if_neg (Nat.not_lt.2 h)

/-- Settles O18: `readRecord`'s two questions, whether the record fits and whether it is erased. -/
theorem headerRecordFields : Obligations.HeaderRecordFields := by
  intro p i a ha
  refine ⟨fun hpast => ?_, fun hfits herased => ?_, fun hfits hwritten => ?_⟩
  · subst ha
    exact readRecord_missing hpast
  · rw [readRecord_of_fits ha hfits]
    exact if_pos (allErased_iff.2 herased)
  · have hnot : ¬allErased p a (recLen p) = true := fun h =>
      let ⟨k, hk, hne⟩ := hwritten
      hne (allErased_iff.1 h k hk)
    rw [readRecord_of_fits ha hfits]
    exact if_neg hnot

/-! ## The fatal configuration errors -/

/-- R254: the scan reaches record `j` only with every record up to it present. -/
theorem valid_of_recordsUpTo {p : Params} {j k : Nat} (h : recordsUpTo p j = true) (hk : k ≤ j) :
    ∃ t z o, readRecord p k = .valid t z o := by
  induction j with
  | zero =>
    obtain rfl := Nat.le_zero.1 hk
    cases hr : readRecord p 0 with
    | valid t z o => exact ⟨t, z, o, rfl⟩
    | missing | terminator => simp [recordsUpTo, hr] at h
  | succ j ih =>
    rw [recordsUpTo, Bool.and_eq_true] at h
    obtain ⟨hbelow, hhere⟩ := h
    obtain hlt | rfl := Nat.lt_or_eq_of_le hk
    · exact ih hbelow (Nat.le_of_lt_succ hlt)
    · cases hr : readRecord p (j + 1) with
      | valid t z o => exact ⟨t, z, o, rfl⟩
      | missing | terminator => simp [hr] at hhere

/-- R76: only the tags 1 to 10 have a scheme. -/
theorem tag_range_of_bootScheme {p : Params} {tag : Byte} {sch : Scheme} (h : bootScheme p tag = some sch) :
    1 ≤ tag.toNat ∧ tag.toNat ≤ 10 := by
  rw [bootScheme] at h
  split at h
  next h10 =>
    subst h10
    decide
  next =>
    unfold schemeOfTag at h
    split at h
    case h_10 => cases h
    all_goals omega

/-- R254: what has passed when `BootConfigure()` gives a configuration. -/
theorem checks_of_bootConfigure {p : Params} {cfg : Cfg} (h : bootConfigure p = some cfg) :
    recordsUpTo p p.activeIndex = true ∧
    ∃ sch, readRecord p p.activeIndex = .valid cfg.tag cfg.romSize cfg.romBase ∧
      bootScheme p cfg.tag = some sch ∧ cfg.romBase.toNat + cfg.romSize.toNat ≤ p.storeLen := by
  unfold bootConfigure at h
  split at h
  case isFalse => cases h
  next hall =>
    split at h
    case h_2 | h_3 => cases h
    next tag size offset hactive =>
      split at h
      case h_2 => cases h
      next sch hsch =>
        split at h
        case isFalse => cases h
        next hfit =>
          cases h
          exact ⟨hall, sch, hactive, hsch, hfit⟩

/-- R254: a record up to the active one that is missing or the terminator is fatal. -/
theorem bootConfigure_of_absent {p : Params} {j : Nat} (hj : j ≤ p.activeIndex)
    (h : readRecord p j = .missing ∨ readRecord p j = .terminator) : bootConfigure p = none := by
  refine Option.eq_none_iff_forall_ne_some.2 fun cfg hc => ?_
  obtain ⟨t, z, o, hr⟩ := valid_of_recordsUpTo (checks_of_bootConfigure hc).1 hj
  rw [hr] at h
  exact h.elim nofun nofun

/-- R254: an active record with a tag outside 1 to 10, or with a payload past the store, is fatal. -/
theorem bootConfigure_of_invalid {p : Params} {tag : Byte} {size offset : U32}
    (hactive : readRecord p p.activeIndex = .valid tag size offset)
    (h : (tag.toNat < 1 ∨ 10 < tag.toNat) ∨ p.storeLen < offset.toNat + size.toNat) : bootConfigure p = none := by
  refine Option.eq_none_iff_forall_ne_some.2 fun cfg hc => ?_
  obtain ⟨-, sch, hr, hsch, hfit⟩ := checks_of_bootConfigure hc
  rw [hactive] at hr
  obtain ⟨rfl, rfl, rfl⟩ := HeaderRecord.valid.inj hr
  have htag := tag_range_of_bootScheme hsch
  omega

/-- R252, R255: in BOOT the boot step without an accepted configuration halts. -/
theorem bootEvent_halts {s : State} (hp : s.phase = .boot) (hc : bootConfigure s.par = none) :
    bootEvent s = { s with phase := .halt } := by
  simp only [bootEvent, hp, hc, halt]

/-- Settles O20: each error leaves `BootConfigure()` without a configuration; HALT is neither SERVE nor BOOT. -/
theorem bootHaltsOnFatalError : Obligations.BootHaltsOnFatalError := by
  intro s hp herror
  have hc : bootConfigure s.par = none := by
    obtain ⟨j, hj, habsent⟩ | ⟨tag, size, offset, hactive, hinvalid⟩ := herror
    · exact bootConfigure_of_absent hj habsent
    · exact bootConfigure_of_invalid hactive hinvalid
  exact ⟨congrArg Host.Outcome.next (bootEvent_halts hp hc), dOE_of_not_serve nofun, waitAct_of_not_boot nofun,
    congrArg Host.Outcome.next (bootEvent_of_not_boot nofun)⟩

end Sys2Proof.Machine
end
